-- ==== Sys2Proof/Word.lean ====
section
/-! DEFINITION. The word types of the DLI and the slicing they need (00_scope.md section 4, R7). -/

namespace Sys2Proof

/-- One byte of guest memory. -/
abbrev Byte := BitVec 8

/-- A 32-bit word: half an instruction, a segment register, a color. -/
abbrev Word := BitVec 32

/-- The 64-bit value of one instruction, `I` of 00_scope.md section 4. -/
abbrev DWord := BitVec 64

end Sys2Proof
end

