-- ==== Sys2Proof/Syntax.lean ====
section
/-! DEFINITION. The instructions of the DLI, one constructor per row of spec/opcode_table.json and one for the
override handlers of custom profiles (47_passthrough.md R290), and the handler identifiers a profile table binds to
opcode slots (10_state.md R32). -/

namespace Sys2Proof

/-- The names of the accepted no-ops, the `name` of `NOP(name)` (10_state.md R32, 47_passthrough.md section 1). -/
inductive NopName where
  | spnoop | noop | rdphalf1 | rdphalf2 | loadsync | pipesync | tilesync | fullsync | triRdp
  deriving DecidableEq, Repr

/-- The names of the opaque handlers, the `name` of `EXTERN(name)` (10_state.md R32, 47_passthrough.md section 2):
the nine of the spec's own opaque instructions, and the mnemonic of a custom profile's override handler (R290). -/
inductive ExternName where
  | vtx | line3d | texture | popmtx | culldl | tri1 | movewordX | movememX | setprimdepth
  | custom (mnemonic : String)
  deriving DecidableEq, Repr

/-- A handler identifier (10_state.md R32): what a profile table binds to an opcode slot. -/
inductive Handler where
  | dl | enddl | dlcnt | unknown
  | settimg | setcimg | setzimg | moveword
  | settile | settilesize | loadtile | loadblock | loadtlut
  | setscissor | setfillcolor | setothermodeH | setothermodeL | rdpsetothermode
  | setgeometrymode | cleargeometrymode | setcombine
  | setprimcolor | setenvcolor | setfogcolor | setblendcolor
  | setkeyr | setkeygb | setconvert
  | texrect | texrectflip | fillrect
  | mtx | movemem
  | nop (name : NopName)
  | extern (name : ExternName)
  deriving DecidableEq, Repr

/-- A decoded instruction. Fields are the raw field values of 30_encoding.md R82; bits a format does not name
are not held. The instructions that are forwarded undecoded (tile instructions, opaque instructions) hold both
halves of the instruction, opcode byte included, because their event carries them (43_tile.md, 47_passthrough.md R290).
`externCustom` is the instruction of a custom profile's override handler, which has no row of its own (R290, log 12). -/
inductive Instr where
  | spnoop
  | mtx (p : BitVec 8) (len : BitVec 16) (sa : Word)
  | movememViewport (len : BitVec 16) (sa : Word)
  | movememLight0 (len : BitVec 16) (sa : Word)
  | movememLight1 (len : BitVec 16) (sa : Word)
  | movememLight2 (len : BitVec 16) (sa : Word)
  | movememLight3 (len : BitVec 16) (sa : Word)
  | movememLight4 (len : BitVec 16) (sa : Word)
  | movememLight5 (len : BitVec 16) (sa : Word)
  | movememLight6 (len : BitVec 16) (sa : Word)
  | movememLight7 (len : BitVec 16) (sa : Word)
  | movememX (w0 w1 : Word)
  | vtx (w0 w1 : Word)
  | dl (p : BitVec 8) (len : BitVec 16) (sa : Word)
  | dlcnt (p : BitVec 8) (len : BitVec 16) (sa : Word)
  | rdphalf2
  | rdphalf1
  | line3d (w0 w1 : Word)
  | cleargeometrymode (data : Word)
  | setgeometrymode (data : Word)
  | enddl
  | setothermodeL (sft len : BitVec 8) (data : Word)
  | setothermodeH (sft len : BitVec 8) (data : Word)
  | texture (w0 w1 : Word)
  | movewordSegment (ofs : BitVec 16) (data : Word)
  | movewordX (w0 w1 : Word)
  | popmtx (w0 w1 : Word)
  | culldl (w0 w1 : Word)
  | tri1 (w0 w1 : Word)
  | noop
  | triRdp (variant : BitVec 3)
  | texrect (xh yh : BitVec 12) (tile : BitVec 3) (xl yl : BitVec 12)
  | texrectflip (xh yh : BitVec 12) (tile : BitVec 3) (xl yl : BitVec 12)
  | loadsync
  | pipesync
  | tilesync
  | fullsync
  | setkeygb
  | setkeyr
  | setconvert
  | setscissor (ulx uly : BitVec 12) (mode : BitVec 2) (lrx lry : BitVec 12)
  | setprimdepth (w0 w1 : Word)
  | rdpsetothermode (omh : BitVec 24) (oml : Word)
  | loadtlut (w0 w1 : Word)
  | settilesize (w0 w1 : Word)
  | loadblock (w0 w1 : Word)
  | loadtile (w0 w1 : Word)
  | settile (w0 w1 : Word)
  | fillrect (xh yh xl yl : BitVec 12)
  | setfillcolor (data : Word)
  | setfogcolor (data : Word)
  | setblendcolor (data : Word)
  | setprimcolor (m l : BitVec 8) (color : Word)
  | setenvcolor (data : Word)
  | setcombine (mux0 : BitVec 24) (mux1 : Word)
  | settimg (fmt : BitVec 3) (siz : BitVec 2) (wm1 : BitVec 12) (sa : Word)
  | setzimg (fmt : BitVec 3) (siz : BitVec 2) (wm1 : BitVec 12) (sa : Word)
  | setcimg (fmt : BitVec 3) (siz : BitVec 2) (wm1 : BitVec 12) (sa : Word)
  | externCustom (mnemonic : String) (w0 w1 : Word)
  | unknown (op : BitVec 8)
  deriving DecidableEq, Repr

end Sys2Proof
end

