-- ==== Sys2Proof/Config.lean ====
section
/-! DEFINITION. What an implementation, a title or a frame fixes: the parameters of 00_scope.md R5, and the
values the spec leaves open, as constants with no body. -/

namespace Sys2Proof

/-- A dispatch table (10_state.md R31, R32): the bindings of opcode values to handlers. The first binding of an
opcode counts; an opcode with none is `UNKNOWN`. -/
abbrev Table := List (BitVec 8 × Handler)

/-- A stock profile id: REF, or another family's (00_scope.md R5, `STOCK_TABLE`). -/
inductive StockId where
  | ref
  | other (n : Nat)
  deriving DecidableEq, Repr, Inhabited

/-- A profile identifier (10_state.md R31): a stock id, or a custom one, of which the spec names REF+CNT (30_encoding.md R86). -/
inductive ProfileId where
  | stock (id : StockId)
  | refCnt
  | custom (n : Nat)
  deriving DecidableEq, Repr, Inhabited

/-- What `CUSTOM` gives for a custom id (40_dispatch_loop.md R113): a stock base and a patch list. -/
structure CustomProfile where
  base : StockId
  patches : Table
  deriving DecidableEq, Repr, Inhabited

/-- A clip rectangle in whole pixels (10_state.md R42). -/
structure Scissor where
  left : Nat
  top : Nat
  right : Nat
  bottom : Nat
  deriving DecidableEq, Repr

/-- The title's policy record (00_scope.md R5, `POLICY`). -/
structure Policy where
  vpHackAlign : Option Nat
  wholeScreenClear : Bool
  deriving DecidableEq, Repr

/-- The parameter DETECT (40_dispatch_loop.md R114): the implementation's own function, which the spec does not
give (`Config.detect`), or the function that is constant, as 95_test_vectors.md assumes it. -/
inductive Detection where
  | implementation
  | constant (pid : ProfileId)
  deriving DecidableEq, Repr

/-- The parameters of the block that are plain data (00_scope.md R5). -/
structure Config where
  /-- `MEM_SIZE`: bytes in guest memory. -/
  memSize : Nat
  /-- `SCISSOR_RESET`: the scissor after the per-frame reset. -/
  scissorReset : Scissor
  /-- `CI_SUPPORTED`: the (fmt, siz) pairs the renderer can draw into. -/
  ciSupported : List (BitVec 3 × BitVec 2)
  /-- `DETECT`. -/
  detection : Detection
  deriving DecidableEq, Repr

/-- `DETECT` of the implementation (40_dispatch_loop.md R114): a total function of the four task fields and the
memory content. The catalogue is not in the source, so nothing is known of it (log 2). -/
opaque Config.detect (codeBase codeSize dataBase dataSize : Word) (memory : List (Nat × Byte)) : ProfileId

/-- `STOCK_TABLE` of a family other than REF (00_scope.md R5): not given (log 2). -/
opaque Config.stockTable (n : Nat) : Table

/-- `CUSTOM` of a custom id other than REF+CNT (00_scope.md R5): not given (log 2). -/
opaque Config.customProfile (n : Nat) : CustomProfile

/-- `VSTRIDE` of a profile other than REF and REF+CNT (00_scope.md R5): not given (log 2). -/
opaque Config.vertexStride (pid : ProfileId) : Nat

/-- The value of `a mod 0`, which the spec does not state (44_raster_state.md R200 with `vpHackAlign = some 0`; log 8). -/
opaque Config.modZero (a : Nat) : Nat

end Sys2Proof
end

