-- ==== Sys2Proof/WellFormed.lean ====
section
/-! DEFINITION. When an instruction's own fields agree with the opcode slot it is stored in and with the
sub-decoding index that selects it (30_encoding.md R82, R87, R88). -/

namespace Sys2Proof

/-- The MOVEMEM indices that select an operation of their own (30_encoding.md R88): the viewport and the eight lights. -/
def movememIndices : List (BitVec 8) :=
  [0x80#8, 0x86#8, 0x88#8, 0x8A#8, 0x8C#8, 0x8E#8, 0x90#8, 0x92#8, 0x94#8]

/-- The first half `w0` carries the opcode byte `op` (30_encoding.md R80). -/
def carriesOpcode (op : BitVec 8) (w0 : Word) : Bool := w0.extractLsb' 24 8 == op

/-- The instruction's fields agree with slot `op`: a forwarded word carries that opcode byte (R80), a MOVEWORD_X
word has an index other than 6 and a MOVEMEM_X word an index that selects nothing else (R88), a native triangle's
variant is the low bits of its opcode (47_passthrough.md R288), and an unbound opcode is the slot's own (R87). -/
def Instr.fitsSlot (op : BitVec 8) : Instr → Bool
  | .spnoop => true
  | .mtx _ _ _ => true
  | .movememViewport _ _ => true
  | .movememLight0 _ _ => true
  | .movememLight1 _ _ => true
  | .movememLight2 _ _ => true
  | .movememLight3 _ _ => true
  | .movememLight4 _ _ => true
  | .movememLight5 _ _ => true
  | .movememLight6 _ _ => true
  | .movememLight7 _ _ => true
  | .movememX w0 _ => carriesOpcode op w0 && !movememIndices.contains (w0.extractLsb' 16 8)
  | .vtx w0 _ => carriesOpcode op w0
  | .dl _ _ _ => true
  | .dlcnt _ _ _ => true
  | .rdphalf2 => true
  | .rdphalf1 => true
  | .line3d w0 _ => carriesOpcode op w0
  | .cleargeometrymode _ => true
  | .setgeometrymode _ => true
  | .enddl => true
  | .setothermodeL _ _ _ => true
  | .setothermodeH _ _ _ => true
  | .texture w0 _ => carriesOpcode op w0
  | .movewordSegment _ _ => true
  | .movewordX w0 _ => carriesOpcode op w0 && w0.extractLsb' 0 8 != 0x06#8
  | .popmtx w0 _ => carriesOpcode op w0
  | .culldl w0 _ => carriesOpcode op w0
  | .tri1 w0 _ => carriesOpcode op w0
  | .noop => true
  | .triRdp variant => op.extractLsb' 0 3 == variant
  | .texrect _ _ _ _ _ => true
  | .texrectflip _ _ _ _ _ => true
  | .loadsync => true
  | .pipesync => true
  | .tilesync => true
  | .fullsync => true
  | .setkeygb => true
  | .setkeyr => true
  | .setconvert => true
  | .setscissor _ _ _ _ _ => true
  | .setprimdepth w0 _ => carriesOpcode op w0
  | .rdpsetothermode _ _ => true
  | .loadtlut w0 _ => carriesOpcode op w0
  | .settilesize w0 _ => carriesOpcode op w0
  | .loadblock w0 _ => carriesOpcode op w0
  | .loadtile w0 _ => carriesOpcode op w0
  | .settile w0 _ => carriesOpcode op w0
  | .fillrect _ _ _ _ => true
  | .setfillcolor _ => true
  | .setfogcolor _ => true
  | .setblendcolor _ => true
  | .setprimcolor _ _ _ => true
  | .setenvcolor _ => true
  | .setcombine _ _ => true
  | .settimg _ _ _ _ => true
  | .setzimg _ _ _ _ => true
  | .setcimg _ _ _ _ => true
  | .externCustom _ w0 _ => carriesOpcode op w0
  | .unknown o => o == op

/-- The handler identifier that runs the instruction (30_encoding.md R86, last columns of its table). -/
def Instr.handler : Instr → Handler
  | .spnoop => .nop .spnoop
  | .mtx _ _ _ => .mtx
  | .movememViewport _ _ => .movemem
  | .movememLight0 _ _ => .movemem
  | .movememLight1 _ _ => .movemem
  | .movememLight2 _ _ => .movemem
  | .movememLight3 _ _ => .movemem
  | .movememLight4 _ _ => .movemem
  | .movememLight5 _ _ => .movemem
  | .movememLight6 _ _ => .movemem
  | .movememLight7 _ _ => .movemem
  | .movememX _ _ => .movemem
  | .vtx _ _ => .extern .vtx
  | .dl _ _ _ => .dl
  | .dlcnt _ _ _ => .dlcnt
  | .rdphalf2 => .nop .rdphalf2
  | .rdphalf1 => .nop .rdphalf1
  | .line3d _ _ => .extern .line3d
  | .cleargeometrymode _ => .cleargeometrymode
  | .setgeometrymode _ => .setgeometrymode
  | .enddl => .enddl
  | .setothermodeL _ _ _ => .setothermodeL
  | .setothermodeH _ _ _ => .setothermodeH
  | .texture _ _ => .extern .texture
  | .movewordSegment _ _ => .moveword
  | .movewordX _ _ => .moveword
  | .popmtx _ _ => .extern .popmtx
  | .culldl _ _ => .extern .culldl
  | .tri1 _ _ => .extern .tri1
  | .noop => .nop .noop
  | .triRdp _ => .nop .triRdp
  | .texrect _ _ _ _ _ => .texrect
  | .texrectflip _ _ _ _ _ => .texrectflip
  | .loadsync => .nop .loadsync
  | .pipesync => .nop .pipesync
  | .tilesync => .nop .tilesync
  | .fullsync => .nop .fullsync
  | .setkeygb => .setkeygb
  | .setkeyr => .setkeyr
  | .setconvert => .setconvert
  | .setscissor _ _ _ _ _ => .setscissor
  | .setprimdepth _ _ => .extern .setprimdepth
  | .rdpsetothermode _ _ => .rdpsetothermode
  | .loadtlut _ _ => .loadtlut
  | .settilesize _ _ => .settilesize
  | .loadblock _ _ => .loadblock
  | .loadtile _ _ => .loadtile
  | .settile _ _ => .settile
  | .fillrect _ _ _ _ => .fillrect
  | .setfillcolor _ => .setfillcolor
  | .setfogcolor _ => .setfogcolor
  | .setblendcolor _ => .setblendcolor
  | .setprimcolor _ _ _ => .setprimcolor
  | .setenvcolor _ => .setenvcolor
  | .setcombine _ _ => .setcombine
  | .settimg _ _ _ _ => .settimg
  | .setzimg _ _ _ _ => .setzimg
  | .setcimg _ _ _ _ => .setcimg
  | .externCustom mnemonic _ _ => .extern (.custom mnemonic)
  | .unknown _ => .unknown

/-- Well-formed in a slot: `op` is the opcode, `bound` the handler the profile binds there. -/
def Instr.wellFormed (op : BitVec 8) (bound : Handler) (i : Instr) : Bool :=
  bound == i.handler && i.fitsSlot op

end Sys2Proof
end

