-- ==== Sys2Proof/Decode.lean ====
section
/-! DEFINITION. The profile tables (30_encoding.md R86, 40_dispatch_loop.md R113), the decoder from an opcode's
handler and the 64 bits of an instruction to an `Instr` (R80 to R88), and the encoder. -/

namespace Sys2Proof

/-! ## Bytes and words -/

/-- The number that a list of bytes reads as, big-endian: the first byte is the most significant (20_memory.md R61). -/
def bigEndian : List Byte → Nat
  | [] => 0
  | b :: rest => b.toNat * 256 ^ rest.length + bigEndian rest

/-- The eight bytes of an instruction in the order memory holds them (20_memory.md R61, 30_encoding.md R80). -/
def dwordBytes (i : DWord) : List Byte :=
  [i.extractLsb' 56 8, i.extractLsb' 48 8, i.extractLsb' 40 8, i.extractLsb' 32 8,
   i.extractLsb' 24 8, i.extractLsb' 16 8, i.extractLsb' 8 8, i.extractLsb' 0 8]

/-- The opcode `I[63:56]` (30_encoding.md R80, 40_dispatch_loop.md R123). -/
def opcodeOf (i : DWord) : BitVec 8 := i.extractLsb' 56 8

/-- The first half `w0 = I[63:32]` (30_encoding.md R80). -/
def firstHalf (i : DWord) : Word := i.extractLsb' 32 32

/-- The second half `w1 = I[31:0]` (30_encoding.md R80). -/
def secondHalf (i : DWord) : Word := i.extractLsb' 0 32

/-! ## Profile tables -/

/-- `table[op]` (10_state.md R31): the first binding of `op`; a slot with none holds `UNKNOWN` (R32). -/
def lookupHandler : Table → BitVec 8 → Handler
  | [], _ => .unknown
  | (slot, h) :: rest, op => if slot = op then h else lookupHandler rest op

/-- REF's microcode-side bindings (30_encoding.md R86, opcodes 0x00 to 0xBF). -/
def refTableLow : Table :=
  [(0x00#8, .nop .spnoop), (0x01#8, .mtx), (0x03#8, .movemem), (0x04#8, .extern .vtx), (0x06#8, .dl),
   (0xB3#8, .nop .rdphalf2), (0xB4#8, .nop .rdphalf1), (0xB5#8, .extern .line3d),
   (0xB6#8, .cleargeometrymode), (0xB7#8, .setgeometrymode), (0xB8#8, .enddl),
   (0xB9#8, .setothermodeL), (0xBA#8, .setothermodeH), (0xBB#8, .extern .texture), (0xBC#8, .moveword),
   (0xBD#8, .extern .popmtx), (0xBE#8, .extern .culldl), (0xBF#8, .extern .tri1)]

/-- REF's no-op, triangle, rectangle and synchronisation bindings (30_encoding.md R86, opcodes 0xC0 to 0xEC). -/
def refTableMid : Table :=
  [(0xC0#8, .nop .noop),
   (0xC8#8, .nop .triRdp), (0xC9#8, .nop .triRdp), (0xCA#8, .nop .triRdp), (0xCB#8, .nop .triRdp),
   (0xCC#8, .nop .triRdp), (0xCD#8, .nop .triRdp), (0xCE#8, .nop .triRdp), (0xCF#8, .nop .triRdp),
   (0xE4#8, .texrect), (0xE5#8, .texrectflip),
   (0xE6#8, .nop .loadsync), (0xE7#8, .nop .pipesync), (0xE8#8, .nop .tilesync), (0xE9#8, .nop .fullsync),
   (0xEA#8, .setkeygb), (0xEB#8, .setkeyr), (0xEC#8, .setconvert)]

/-- REF's raster-state, tile and image bindings (30_encoding.md R86, opcodes 0xED to 0xFF). -/
def refTableHigh : Table :=
  [(0xED#8, .setscissor), (0xEE#8, .extern .setprimdepth), (0xEF#8, .rdpsetothermode),
   (0xF0#8, .loadtlut), (0xF2#8, .settilesize), (0xF3#8, .loadblock), (0xF4#8, .loadtile), (0xF5#8, .settile),
   (0xF6#8, .fillrect), (0xF7#8, .setfillcolor), (0xF8#8, .setfogcolor), (0xF9#8, .setblendcolor),
   (0xFA#8, .setprimcolor), (0xFB#8, .setenvcolor), (0xFC#8, .setcombine),
   (0xFD#8, .settimg), (0xFE#8, .setzimg), (0xFF#8, .setcimg)]

/-- `STOCK_TABLE(REF)`: REF binds exactly these opcodes (30_encoding.md R86). -/
def refTable : Table := refTableLow ++ refTableMid ++ refTableHigh

/-- `STOCK_TABLE` (00_scope.md R5): REF is given, every other family is the implementation's. -/
def stockTable : StockId → Table
  | .ref => refTable
  | .other n => Config.stockTable n

/-- `CUSTOM` (40_dispatch_loop.md R113): REF+CNT is REF with 0x07 bound to DLCNT, every other id is the implementation's. -/
def refCntProfile : CustomProfile := { base := .ref, patches := [(0x07#8, .dlcnt)] }

/-- A custom profile's table: its patches override its base's slots (40_dispatch_loop.md R113). -/
def patchedTable (c : CustomProfile) : Table := c.patches ++ stockTable c.base

/-- `BUILD(pid)` (40_dispatch_loop.md R113). -/
def buildTable : ProfileId → Table
  | .stock id => stockTable id
  | .refCnt => patchedTable refCntProfile
  | .custom n => patchedTable (Config.customProfile n)

/-- `VSTRIDE(pid)` (30_encoding.md R86: 16 for REF and REF+CNT; otherwise the implementation's). -/
def vertexStride : ProfileId → Nat
  | .stock .ref => 16
  | .refCnt => 16
  | pid => Config.vertexStride pid

/-! ## The decoder -/

/-- The MOVEMEM instruction that the index `p` selects (30_encoding.md R88). -/
def decodeMovemem (w0 w1 : Word) : Instr :=
  let p := w0.extractLsb' 16 8
  let len := w0.extractLsb' 0 16
  if p = 0x80#8 then .movememViewport len w1
  else if p = 0x86#8 then .movememLight0 len w1
  else if p = 0x88#8 then .movememLight1 len w1
  else if p = 0x8A#8 then .movememLight2 len w1
  else if p = 0x8C#8 then .movememLight3 len w1
  else if p = 0x8E#8 then .movememLight4 len w1
  else if p = 0x90#8 then .movememLight5 len w1
  else if p = 0x92#8 then .movememLight6 len w1
  else if p = 0x94#8 then .movememLight7 len w1
  else .movememX w0 w1

/-- The MOVEWORD instruction that the index `idx` selects (30_encoding.md R88). -/
def decodeMoveword (w0 w1 : Word) : Instr :=
  if w0.extractLsb' 0 8 = 0x06#8 then .movewordSegment (w0.extractLsb' 8 16) w1 else .movewordX w0 w1

/-- The accepted no-op of a name, stored in slot `op` (47_passthrough.md R280 to R288). -/
def decodeNop (op : BitVec 8) : NopName → Instr
  | .spnoop => .spnoop
  | .noop => .noop
  | .rdphalf1 => .rdphalf1
  | .rdphalf2 => .rdphalf2
  | .loadsync => .loadsync
  | .pipesync => .pipesync
  | .tilesync => .tilesync
  | .fullsync => .fullsync
  | .triRdp => .triRdp (op.extractLsb' 0 3)

/-- The opaque instruction of a name, its two halves undecoded (47_passthrough.md R290 to R299). -/
def decodeExtern (w0 w1 : Word) : ExternName → Instr
  | .vtx => .vtx w0 w1
  | .line3d => .line3d w0 w1
  | .texture => .texture w0 w1
  | .popmtx => .popmtx w0 w1
  | .culldl => .culldl w0 w1
  | .tri1 => .tri1 w0 w1
  | .movewordX => .movewordX w0 w1
  | .movememX => .movememX w0 w1
  | .setprimdepth => .setprimdepth w0 w1
  | .custom mnemonic => .externCustom mnemonic w0 w1

/-- The instruction a handler reads from the two halves of the word, by its format (30_encoding.md R82, R86). -/
def decodeFor (h : Handler) (op : BitVec 8) (w0 w1 : Word) : Instr :=
  match h with
  | .dl => .dl (w0.extractLsb' 16 8) (w0.extractLsb' 0 16) w1
  | .enddl => .enddl
  | .dlcnt => .dlcnt (w0.extractLsb' 16 8) (w0.extractLsb' 0 16) w1
  | .unknown => .unknown op
  | .settimg => .settimg (w0.extractLsb' 21 3) (w0.extractLsb' 19 2) (w0.extractLsb' 0 12) w1
  | .setcimg => .setcimg (w0.extractLsb' 21 3) (w0.extractLsb' 19 2) (w0.extractLsb' 0 12) w1
  | .setzimg => .setzimg (w0.extractLsb' 21 3) (w0.extractLsb' 19 2) (w0.extractLsb' 0 12) w1
  | .moveword => decodeMoveword w0 w1
  | .settile => .settile w0 w1
  | .settilesize => .settilesize w0 w1
  | .loadtile => .loadtile w0 w1
  | .loadblock => .loadblock w0 w1
  | .loadtlut => .loadtlut w0 w1
  | .setscissor => .setscissor (w0.extractLsb' 12 12) (w0.extractLsb' 0 12)
      (w1.extractLsb' 24 2) (w1.extractLsb' 12 12) (w1.extractLsb' 0 12)
  | .setfillcolor => .setfillcolor w1
  | .setothermodeH => .setothermodeH (w0.extractLsb' 8 8) (w0.extractLsb' 0 8) w1
  | .setothermodeL => .setothermodeL (w0.extractLsb' 8 8) (w0.extractLsb' 0 8) w1
  | .rdpsetothermode => .rdpsetothermode (w0.extractLsb' 0 24) w1
  | .setgeometrymode => .setgeometrymode w1
  | .cleargeometrymode => .cleargeometrymode w1
  | .setcombine => .setcombine (w0.extractLsb' 0 24) w1
  | .setprimcolor => .setprimcolor (w0.extractLsb' 8 8) (w0.extractLsb' 0 8) w1
  | .setenvcolor => .setenvcolor w1
  | .setfogcolor => .setfogcolor w1
  | .setblendcolor => .setblendcolor w1
  | .setkeyr => .setkeyr
  | .setkeygb => .setkeygb
  | .setconvert => .setconvert
  | .texrect => .texrect (w0.extractLsb' 12 12) (w0.extractLsb' 0 12)
      (w1.extractLsb' 24 3) (w1.extractLsb' 12 12) (w1.extractLsb' 0 12)
  | .texrectflip => .texrectflip (w0.extractLsb' 12 12) (w0.extractLsb' 0 12)
      (w1.extractLsb' 24 3) (w1.extractLsb' 12 12) (w1.extractLsb' 0 12)
  | .fillrect => .fillrect (w0.extractLsb' 12 12) (w0.extractLsb' 0 12)
      (w1.extractLsb' 12 12) (w1.extractLsb' 0 12)
  | .mtx => .mtx (w0.extractLsb' 16 8) (w0.extractLsb' 0 16) w1
  | .movemem => decodeMovemem w0 w1
  | .nop name => decodeNop op name
  | .extern name => decodeExtern w0 w1 name

/-- Decode and dispatch (40_dispatch_loop.md R123): the handler is the table's entry for the top eight bits, and
the handler reads the word by its format. Total: every word decodes under every profile (30_encoding.md R87). -/
def decodeDWord (t : Table) (i : DWord) : Instr :=
  decodeFor (lookupHandler t (opcodeOf i)) (opcodeOf i) (firstHalf i) (secondHalf i)

/-- Why a string of bytes is not an instruction. -/
inductive DecodeError where
  /-- fewer than the eight bytes of an instruction (30_encoding.md R80) -/
  | truncated
  deriving DecidableEq, Repr

/-- The first instruction of a string of bytes in memory order, with the bytes after it. -/
def decodeBytes (t : Table) : List Byte → Except DecodeError (Instr × List Byte)
  | b0 :: b1 :: b2 :: b3 :: b4 :: b5 :: b6 :: b7 :: rest =>
    .ok (decodeDWord t (BitVec.ofNat 64 (bigEndian [b0, b1, b2, b3, b4, b5, b6, b7])), rest)
  | _ => .error .truncated

/-- The three 8-byte words of a command whose bits are `w`, numbered as spec/opcode_table.json numbers them: the
instruction is bits 63..0, the two extra words of a 24-byte command (30_encoding.md R81) the bits above. -/
def tableWords (nbits w : Nat) : DWord × DWord × DWord :=
  let v := w % 2 ^ nbits
  (BitVec.ofNat 64 v, BitVec.ofNat 64 (v / 2 ^ 64), BitVec.ofNat 64 (v / 2 ^ 128))

/-- The bytes of that command as memory holds them. -/
def tableBytes (nbits w : Nat) : List Byte :=
  let ws := tableWords nbits w
  dwordBytes ws.1 ++ dwordBytes ws.2.1 ++ dwordBytes ws.2.2

/-- The instruction the decoder reads from a command whose bits are `w`, under REF+CNT, the one profile the spec
gives that binds every row of the table (30_encoding.md R86; log 13). -/
def decodeTableWord (nbits w : Nat) : Option Instr :=
  match decodeBytes (buildTable .refCnt) (tableBytes nbits w) with
  | .ok (i, _) => some i
  | .error _ => none

/-! ## The encoder -/

/-- Two halves as one instruction (30_encoding.md R80). -/
def joinHalves (w0 w1 : Word) : DWord := w0 ++ w1

/-- Format DMA (30_encoding.md R82). -/
def encodeDma (op p : BitVec 8) (len : BitVec 16) (sa : Word) : DWord := joinHalves (op ++ p ++ len) sa

/-- Format MW with the segment index 6 (30_encoding.md R82, R88). -/
def encodeMw (op : BitVec 8) (ofs : BitVec 16) (data : Word) : DWord := joinHalves (op ++ ofs ++ 0x06#8) data

/-- Format OM; `w0[23:16]` is ignored and written 0. -/
def encodeOm (op sft len : BitVec 8) (data : Word) : DWord := joinHalves (op ++ 0#8 ++ sft ++ len) data

/-- Format IMM; `w0[23:0]` is ignored and written 0. -/
def encodeImm (op : BitVec 8) (data : Word) : DWord := joinHalves (op ++ 0#24) data

/-- Format IMG; `w0[18:12]` is ignored and written 0. -/
def encodeImg (op : BitVec 8) (fmt : BitVec 3) (siz : BitVec 2) (wm1 : BitVec 12) (sa : Word) : DWord :=
  joinHalves (op ++ fmt ++ siz ++ 0#7 ++ wm1) sa

/-- Format PRIM; `w0[23:16]` is ignored and written 0. -/
def encodePrim (op m l : BitVec 8) (color : Word) : DWord := joinHalves (op ++ 0#8 ++ m ++ l) color

/-- Formats CMB and RDPOM. -/
def encodeLow24 (op : BitVec 8) (low : BitVec 24) (w1 : Word) : DWord := joinHalves (op ++ low) w1

/-- Format SCIS; `w1[31:26]` is not named and written 0. -/
def encodeScis (op : BitVec 8) (ulx uly : BitVec 12) (mode : BitVec 2) (lrx lry : BitVec 12) : DWord :=
  joinHalves (op ++ ulx ++ uly) (0#6 ++ mode ++ lrx ++ lry)

/-- Format RECT; `w1[31:24]` is not named and written 0. -/
def encodeRect (op : BitVec 8) (xh yh xl yl : BitVec 12) : DWord :=
  joinHalves (op ++ xh ++ yh) (0#8 ++ xl ++ yl)

/-- Format TRECT, its first word; `w1[31:27]` is not named and written 0. -/
def encodeTrect (op : BitVec 8) (xh yh : BitVec 12) (tile : BitVec 3) (xl yl : BitVec 12) : DWord :=
  joinHalves (op ++ xh ++ yh) (0#5 ++ tile ++ xl ++ yl)

/-- Format RAW of an instruction that decodes nothing: the opcode and zeros. -/
def encodeRaw (op : BitVec 8) : DWord := joinHalves (op ++ 0#24) 0#32

/-- The word of an instruction stored in slot `op`, by its format (30_encoding.md R82, R88). A forwarded
instruction's word holds its own opcode byte (`Instr.fitsSlot`). -/
def encodeAt (op : BitVec 8) : Instr → DWord
  | .spnoop => encodeRaw op
  | .mtx p len sa => encodeDma op p len sa
  | .movememViewport len sa => encodeDma op 0x80#8 len sa
  | .movememLight0 len sa => encodeDma op 0x86#8 len sa
  | .movememLight1 len sa => encodeDma op 0x88#8 len sa
  | .movememLight2 len sa => encodeDma op 0x8A#8 len sa
  | .movememLight3 len sa => encodeDma op 0x8C#8 len sa
  | .movememLight4 len sa => encodeDma op 0x8E#8 len sa
  | .movememLight5 len sa => encodeDma op 0x90#8 len sa
  | .movememLight6 len sa => encodeDma op 0x92#8 len sa
  | .movememLight7 len sa => encodeDma op 0x94#8 len sa
  | .movememX w0 w1 => joinHalves w0 w1
  | .vtx w0 w1 => joinHalves w0 w1
  | .dl p len sa => encodeDma op p len sa
  | .dlcnt p len sa => encodeDma op p len sa
  | .rdphalf2 => encodeRaw op
  | .rdphalf1 => encodeRaw op
  | .line3d w0 w1 => joinHalves w0 w1
  | .cleargeometrymode data => encodeImm op data
  | .setgeometrymode data => encodeImm op data
  | .enddl => encodeRaw op
  | .setothermodeL sft len data => encodeOm op sft len data
  | .setothermodeH sft len data => encodeOm op sft len data
  | .texture w0 w1 => joinHalves w0 w1
  | .movewordSegment ofs data => encodeMw op ofs data
  | .movewordX w0 w1 => joinHalves w0 w1
  | .popmtx w0 w1 => joinHalves w0 w1
  | .culldl w0 w1 => joinHalves w0 w1
  | .tri1 w0 w1 => joinHalves w0 w1
  | .noop => encodeRaw op
  | .triRdp _ => encodeRaw op
  | .texrect xh yh tile xl yl => encodeTrect op xh yh tile xl yl
  | .texrectflip xh yh tile xl yl => encodeTrect op xh yh tile xl yl
  | .loadsync => encodeRaw op
  | .pipesync => encodeRaw op
  | .tilesync => encodeRaw op
  | .fullsync => encodeRaw op
  | .setkeygb => encodeRaw op
  | .setkeyr => encodeRaw op
  | .setconvert => encodeRaw op
  | .setscissor ulx uly mode lrx lry => encodeScis op ulx uly mode lrx lry
  | .setprimdepth w0 w1 => joinHalves w0 w1
  | .rdpsetothermode omh oml => encodeLow24 op omh oml
  | .loadtlut w0 w1 => joinHalves w0 w1
  | .settilesize w0 w1 => joinHalves w0 w1
  | .loadblock w0 w1 => joinHalves w0 w1
  | .loadtile w0 w1 => joinHalves w0 w1
  | .settile w0 w1 => joinHalves w0 w1
  | .fillrect xh yh xl yl => encodeRect op xh yh xl yl
  | .setfillcolor data => encodeImm op data
  | .setfogcolor data => encodeImm op data
  | .setblendcolor data => encodeImm op data
  | .setprimcolor m l color => encodePrim op m l color
  | .setenvcolor data => encodeImm op data
  | .setcombine mux0 mux1 => encodeLow24 op mux0 mux1
  | .settimg fmt siz wm1 sa => encodeImg op fmt siz wm1 sa
  | .setzimg fmt siz wm1 sa => encodeImg op fmt siz wm1 sa
  | .setcimg fmt siz wm1 sa => encodeImg op fmt siz wm1 sa
  | .externCustom _ w0 w1 => joinHalves w0 w1
  | .unknown _ => encodeRaw op

/-- The opcode slot REF+CNT keeps the instruction in (30_encoding.md R86); an unbound instruction's slot is its own,
a native triangle's is 0xC8 plus its variant (47_passthrough.md R288), and an override handler, which REF+CNT binds
nowhere, has the slot its word carries. -/
def Instr.refOpcode : Instr → BitVec 8
  | .spnoop => 0x00#8
  | .mtx _ _ _ => 0x01#8
  | .movememViewport _ _ => 0x03#8
  | .movememLight0 _ _ => 0x03#8
  | .movememLight1 _ _ => 0x03#8
  | .movememLight2 _ _ => 0x03#8
  | .movememLight3 _ _ => 0x03#8
  | .movememLight4 _ _ => 0x03#8
  | .movememLight5 _ _ => 0x03#8
  | .movememLight6 _ _ => 0x03#8
  | .movememLight7 _ _ => 0x03#8
  | .movememX _ _ => 0x03#8
  | .vtx _ _ => 0x04#8
  | .dl _ _ _ => 0x06#8
  | .dlcnt _ _ _ => 0x07#8
  | .rdphalf2 => 0xB3#8
  | .rdphalf1 => 0xB4#8
  | .line3d _ _ => 0xB5#8
  | .cleargeometrymode _ => 0xB6#8
  | .setgeometrymode _ => 0xB7#8
  | .enddl => 0xB8#8
  | .setothermodeL _ _ _ => 0xB9#8
  | .setothermodeH _ _ _ => 0xBA#8
  | .texture _ _ => 0xBB#8
  | .movewordSegment _ _ => 0xBC#8
  | .movewordX _ _ => 0xBC#8
  | .popmtx _ _ => 0xBD#8
  | .culldl _ _ => 0xBE#8
  | .tri1 _ _ => 0xBF#8
  | .noop => 0xC0#8
  | .triRdp variant => 0x19#5 ++ variant
  | .texrect _ _ _ _ _ => 0xE4#8
  | .texrectflip _ _ _ _ _ => 0xE5#8
  | .loadsync => 0xE6#8
  | .pipesync => 0xE7#8
  | .tilesync => 0xE8#8
  | .fullsync => 0xE9#8
  | .setkeygb => 0xEA#8
  | .setkeyr => 0xEB#8
  | .setconvert => 0xEC#8
  | .setscissor _ _ _ _ _ => 0xED#8
  | .setprimdepth _ _ => 0xEE#8
  | .rdpsetothermode _ _ => 0xEF#8
  | .loadtlut _ _ => 0xF0#8
  | .settilesize _ _ => 0xF2#8
  | .loadblock _ _ => 0xF3#8
  | .loadtile _ _ => 0xF4#8
  | .settile _ _ => 0xF5#8
  | .fillrect _ _ _ _ => 0xF6#8
  | .setfillcolor _ => 0xF7#8
  | .setfogcolor _ => 0xF8#8
  | .setblendcolor _ => 0xF9#8
  | .setprimcolor _ _ _ => 0xFA#8
  | .setenvcolor _ => 0xFB#8
  | .setcombine _ _ => 0xFC#8
  | .settimg _ _ _ _ => 0xFD#8
  | .setzimg _ _ _ _ => 0xFE#8
  | .setcimg _ _ _ _ => 0xFF#8
  | .externCustom _ w0 _ => w0.extractLsb' 24 8
  | .unknown op => op

/-- The word of an instruction under REF+CNT (and under REF, DLCNT apart). -/
def encode (i : Instr) : DWord := encodeAt i.refOpcode i

/-- The instruction is well-formed under REF+CNT: its slot is bound to its handler, and its fields fit the slot. -/
def Instr.wellFormedRef (i : Instr) : Bool :=
  i.wellFormed i.refOpcode (lookupHandler (buildTable .refCnt) i.refOpcode)

/-- An extra word that carries `w1` (30_encoding.md R82, R90: the opcode byte is ignored by the DLI). -/
def encodeExtra (op : BitVec 8) (w1 : Word) : DWord := joinHalves (op ++ 0#24) w1

/-- The two extra words of a TEXRECT or TEXRECTFLIP command, with REF's conventional opcode bytes (30_encoding.md R90). -/
def encodeExtras (s t dsdx dtdy : BitVec 16) : DWord × DWord :=
  (encodeExtra 0xB4#8 (s ++ t), encodeExtra 0xB3#8 (dsdx ++ dtdy))

end Sys2Proof
end

