-- ==== Sys2Proof/Machine/State.lean ====
section
/-! DEFINITION. The state of the DLI (10_state.md), the records it holds, the inputs the host gives it
(40_dispatch_loop.md R111, R130), the outcomes other than a next state, and the state after power-on (R52). -/

namespace Sys2Proof.Machine

/-- An image descriptor: TIMG, CIMG or ZIMG (10_state.md R40). -/
structure ImageDesc where
  fmt : BitVec 3
  siz : BitVec 2
  width : BitVec 13
  addr : Nat
  deriving DecidableEq, Repr

/-- COMBINE (10_state.md R46). -/
structure Combine where
  mux0 : BitVec 24
  mux1 : Word
  deriving DecidableEq, Repr

/-- PRIM (10_state.md R47). -/
structure Prim where
  color : Word
  m : Byte
  l : Byte
  deriving DecidableEq, Repr

/-- The per-frame coprocessor registers (10_state.md R40 to R47); a trace record's snapshot is a copy of these
(00_scope.md R11). -/
structure Regs where
  timg : ImageDesc
  cimg : ImageDesc
  zimg : ImageDesc
  fill : Word
  scissor : Scissor
  omh : Word
  oml : Word
  geom : Word
  combine : Combine
  prim : Prim
  env : Word
  fog : Word
  blend : Word
  deriving DecidableEq, Repr

/-- A rectangle in exact rational pixels (45_rectangles.md R233): near corner (x0, y0), far corner (x1, y1). -/
structure Rect where
  x0 : Rat
  y0 : Rat
  x1 : Rat
  y1 : Rat
  deriving DecidableEq, Repr

/-- The texture operands of a textured rectangle (45_rectangles.md R230): S, T, DS, DT. -/
structure TexCoords where
  s : Rat
  t : Rat
  dsdx : Rat
  dtdy : Rat
  deriving DecidableEq, Repr

/-- A 4x4 matrix of exact rationals, row-major (46_matrix_light.md R263). -/
abbrev Matrix4 := Vector (Vector Rat 4) 4

/-- The output events (10_state.md R50), in its order. -/
inductive Event where
  | mtxReset (hint : Word)
  | sceneBegin
  | sceneEnd
  | scissor (l t r b : Nat)
  | texRect (tile : BitVec 3) (rect : Rect) (tex : TexCoords)
  | texRectFlip (tile : BitVec 3) (rect : Rect) (tex : TexCoords)
  | fillRect (rect : Rect) (color : Word)
  | clearColor (color : Word)
  | clearDepth
  | combine (mux0 : BitVec 24) (mux1 : Word)
  | prim (color : Word) (m l : Byte)
  | env (color : Word)
  | fog (color : Word)
  | blend (color : Word)
  | lightColor (n : Fin 8) (r g b : Byte)
  | lightDir (n : Fin 8) (x y z : Int)
  | matrix (params : Byte) (m : Matrix4)
  | viewport (v : BitVec 128)
  | viewportFromRegion
  | extern (name : ExternName) (w0 w1 : Word)
  | setTile (w0 w1 : Word)
  | setTileSize (w0 w1 : Word)
  | loadTile (w0 w1 : Word)
  | loadBlock (w0 w1 : Word)
  | loadTlut (w0 w1 : Word)
  | irqDone
  deriving DecidableEq, Repr

/-- A trace record: an event and the registers at the moment of its emission (00_scope.md R11). -/
structure TraceRecord where
  event : Event
  snap : Regs
  deriving DecidableEq, Repr

/-- A display-list stack frame (10_state.md R33): fetch address and remaining budget, `none` being unbounded. -/
structure Frame where
  addr : Nat
  cnt : Option Nat
  deriving DecidableEq, Repr

/-- The fault codes of the DLI (60_exceptions.md R300). -/
inductive FaultCode where
  | range
  | align
  deriving DecidableEq, Repr

/-- What `raise Fault(code, info)` records (00_scope.md R10, 60_exceptions.md R300). -/
structure Trap where
  code : FaultCode
  info : Nat
  deriving DecidableEq, Repr

/-- RUN (10_state.md R37). -/
inductive Run where
  | idle
  | running
  | done
  | faulted (trap : Trap)
  deriving DecidableEq, Repr

/-- PCACHE (10_state.md R31). -/
structure ProfileCache where
  valid : Bool
  codeBase : Word
  pid : ProfileId
  table : Table
  vstride : Nat
  deriving DecidableEq, Repr

/-- The task descriptor (40_dispatch_loop.md R111). -/
structure Task where
  codeBase : Word
  codeSize : Word
  dataBase : Word
  dataSize : Word
  dlStart : Word
  stackHint : Word
  deriving DecidableEq, Repr

/-- The inputs of one Process (40_dispatch_loop.md R111): constant while it runs. -/
structure FrameInput where
  task : Task
  rendererAvailable : Bool
  policy : Policy
  maxDispatch : Option Nat
  deriving DecidableEq, Repr

/-- A move of the host (40_dispatch_loop.md R130). -/
inductive HostMove where
  /-- power the DLI on (70_reset_and_hazards.md R330) -/
  | powerOn
  /-- write guest memory from `addr` on, between Processes (20_memory.md R70) -/
  | writeMemory (addr : Nat) (bytes : List Byte)
  /-- start a Process (R115) -/
  | startProcess (input : FrameInput)
  deriving DecidableEq, Repr

/-- Guest memory (20_memory.md R60): the bytes that differ from what an unlisted address reads as, addresses strictly rising. -/
abbrev Memory := List Host.Cell

/-- The machine: the DLI's own state (10_state.md), guest memory, and what the host has given it. -/
structure State where
  /-- the parameters of 00_scope.md R5; no step changes them (log 1) -/
  cfg : Config
  /-- SEG (R30) -/
  seg : Vector Word 16
  /-- PCACHE (R31) -/
  pcache : ProfileCache
  /-- ERR_OVF (R39) -/
  errOvf : Bool
  /-- STACK (R33): the live frames, the top one first; depth is the length (log 5) -/
  stack : List Frame
  /-- RUN (R37) -/
  run : Run
  /-- ICOUNT (R38) -/
  icount : Nat
  /-- the per-frame coprocessor registers (R40 to R47) -/
  regs : Regs
  /-- TRACE (R50), oldest record first -/
  trace : List TraceRecord
  /-- guest memory (20_memory.md R60) -/
  mem : Memory
  /-- the inputs of the current Process (40_dispatch_loop.md R111) -/
  input : FrameInput
  /-- the host's pending moves, the next one first (40_dispatch_loop.md R130; log 3) -/
  host : List HostMove
  deriving DecidableEq, Repr

/-- Why the machine stops. -/
inductive Fault where
  /-- Raised by `step` when RUN is `Faulted(code, info)`: the state has no successor but power-on
  (60_exceptions.md R304). Safe: the machine stops where the spec says nothing executes (log 9). -/
  | halted (trap : Trap)
  /-- Raised by a pop, a branch or an extra fetch of a machine whose stack is empty, which 10_state.md R35 says
  never happens (pc is undefined there, R21). Safe: no step reaches it (log 10). -/
  | emptyStack
  /-- Raised by `step` when the host writes bytes at `addr` that guest memory does not have (20_memory.md R60).
  Safe: the spec gives the host no such move (log 11). -/
  | hostWriteOutOfRange (addr : Nat)
  deriving DecidableEq, Repr

/-- Why an instruction has no meaning. -/
inductive Refusal where
  /-- Raised by an arm of `exec` whose instruction has no meaning yet. Safe: nothing is said of it. -/
  | notModelled (mnemonic : String)
  deriving DecidableEq, Repr

/-- `depth` (10_state.md R33). -/
def State.depth (s : State) : Nat := s.stack.length

/-- `pc`, the fetch address of the top frame; defined only while `depth >= 1` (10_state.md R21). -/
def State.pc (s : State) : Option Nat := s.stack.head?.map Frame.addr

/-- The REF configuration (00_scope.md R5), with the implementation's DETECT. -/
def refConfig : Config where
  memSize := 0x00400000
  scissorReset := { left := 0, top := 0, right := 0, bottom := 0 }
  ciSupported := [(0#3, 2#2), (1#3, 2#2), (2#3, 2#2), (3#3, 2#2), (4#3, 2#2), (5#3, 2#2), (6#3, 2#2), (7#3, 2#2)]
  detection := .implementation

/-- REF's `POLICY` (00_scope.md R5). -/
def refPolicy : Policy := { vpHackAlign := none, wholeScreenClear := true }

/-- The image descriptor of a per-frame reset (10_state.md R40, R48). -/
def ImageDesc.cleared : ImageDesc := { fmt := 0, siz := 0, width := 0, addr := 0 }

/-- The per-frame registers of a reset (10_state.md R48, R52), `SCISSOR_RESET` being a parameter. -/
def clearedRegs (scissorReset : Scissor) : Regs where
  timg := .cleared
  cimg := .cleared
  zimg := .cleared
  fill := 0
  scissor := scissorReset
  omh := 0
  oml := 0
  geom := 0
  combine := { mux0 := 0, mux1 := 0 }
  prim := { color := 0, m := 0, l := 0 }
  env := 0
  fog := 0
  blend := 0

/-- PCACHE at power-on (10_state.md R31, R52): invalid; its other fields are never read (log 6). -/
def invalidCache : ProfileCache where
  valid := false
  codeBase := 0
  pid := .stock .ref
  table := []
  vstride := 0

/-- The inputs before the first Process, which no rule reads then (log 7). -/
def noInput : FrameInput where
  task := { codeBase := 0, codeSize := 0, dataBase := 0, dataSize := 0, dlStart := 0, stackHint := 0 }
  rendererAvailable := true
  policy := refPolicy
  maxDispatch := none

/-- The machine right after power-on (10_state.md R52, 70_reset_and_hazards.md R330), in the REF configuration. -/
def State.reset : State where
  cfg := refConfig
  seg := Vector.replicate 16 0
  pcache := invalidCache
  errOvf := false
  stack := []
  run := .idle
  icount := 0
  regs := clearedRegs refConfig.scissorReset
  trace := []
  mem := []
  input := noInput
  host := []

end Sys2Proof.Machine
end

