-- ==== Sys2Proof/Machine/Ops.lean ====
section
/-! DEFINITION. The named operations of the machine: guest memory (20_memory.md), the Segment Translator (R65), the
display-list stack (10_state.md R34, R35), the trace (00_scope.md R11), raising a fault (R10), the parts of the
dispatch step around a handler (40_dispatch_loop.md R120 to R128), and the host's moves (R130). -/

namespace Sys2Proof.Machine

/-- An outcome of this machine. -/
abbrev Result := Host.Outcome State Fault Refusal

/-! ## Guest memory -/

/-- What a byte of guest memory that nothing has written reads as (95_test_vectors.md, "Guest memory not listed
holds 0"; log 4). -/
def Memory.unlisted : Byte := 0

/-- The byte at an offset. -/
def Memory.read : Memory → Nat → Byte
  | [], _ => Memory.unlisted
  | (k, b) :: rest, a => if k = a then b else Memory.read rest a

/-- Write one byte, keeping the canonical form: a byte equal to the unlisted value is not listed. -/
def Memory.write : Memory → Nat → Byte → Memory
  | [], a, v => if v = Memory.unlisted then [] else [(a, v)]
  | (k, b) :: rest, a, v =>
    if a < k then (if v = Memory.unlisted then (k, b) :: rest else (a, v) :: (k, b) :: rest)
    else if a = k then (if v = Memory.unlisted then rest else (a, v) :: rest)
    else (k, b) :: Memory.write rest a v

/-- Write bytes at rising offsets. -/
def Memory.writeBytes : Memory → Nat → List Byte → Memory
  | m, _, [] => m
  | m, a, b :: rest => Memory.writeBytes (Memory.write m a b) (a + 1) rest

/-- Every offset listed in `m` is above `a`. -/
def Memory.above (a : Nat) : Memory → Bool
  | [] => true
  | (k, _) :: _ => a < k

/-- The canonical form: offsets strictly rising, no byte equal to the unlisted value listed. -/
def Memory.wf : Memory → Bool
  | [] => true
  | (k, b) :: rest => b != Memory.unlisted && Memory.above k rest && Memory.wf rest

/-- The `n` bytes from `a` on, in rising order. -/
def Memory.readBytes (m : Memory) (a : Nat) : Nat → List Byte
  | 0 => []
  | n + 1 => Memory.read m a :: Memory.readBytes m (a + 1) n

/-- The bytes of `MemRead(a, n)` (00_scope.md R6, 20_memory.md R69): `F_RANGE` with the base address if the read
does not lie wholly below `MEM_SIZE`. -/
def State.readBytes (s : State) (a n : Nat) : Except Trap (List Byte) :=
  if a + n ≤ s.cfg.memSize then .ok (Memory.readBytes s.mem a n)
  else .error { code := .range, info := a }

/-- `MemRead(a, n)` (00_scope.md R6, 20_memory.md R61): the number its bytes read as, big-endian. -/
def State.memRead (s : State) (a n : Nat) : Except Trap Nat :=
  match s.readBytes a n with
  | .ok bytes => .ok (bigEndian bytes)
  | .error t => .error t

/-- `MemRead8s(a)` (00_scope.md R6). -/
def State.memRead8s (s : State) (a : Nat) : Except Trap Int :=
  match s.memRead a 1 with
  | .ok v => .ok (BitVec.ofNat 8 v).toInt
  | .error t => .error t

/-- `MemRead16s(a)` (00_scope.md R6). -/
def State.memRead16s (s : State) (a : Nat) : Except Trap Int :=
  match s.memRead a 2 with
  | .ok v => .ok (BitVec.ofNat 16 v).toInt
  | .error t => .error t

/-- The bytes at `a`, which must be a multiple of 8 (20_memory.md R67, R68): alignment is tested before the range
(60_exceptions.md R302). -/
def State.readAligned (s : State) (a n : Nat) : Except Trap (List Byte) :=
  if a % 8 = 0 then s.readBytes a n else .error { code := .align, info := a }

/-- The 8-byte word at `a`, as a fetch reads it (20_memory.md R67, 40_dispatch_loop.md R120). -/
def State.fetchWord (s : State) (a : Nat) : Except Trap DWord :=
  match s.readAligned a 8 with
  | .ok bytes => .ok (BitVec.ofNat 64 (bigEndian bytes))
  | .error t => .error t

/-! ## The Segment Translator -/

/-- `SEG[n]` (10_state.md R30). -/
def State.segment (s : State) (n : BitVec 4) : Word := s.seg.get n.toFin

/-- `SEG[n] <- v`, all 32 bits (10_state.md R30). -/
def State.setSegment (s : State) (n : BitVec 4) (v : Word) : State :=
  { s with seg := s.seg.set n.toNat v n.isLt }

/-- `resolve(sa)` (20_memory.md R65): base and offset masked to 24 bits each, their sum unreduced. -/
def State.resolve (s : State) (sa : Word) : Nat :=
  (s.segment (sa.extractLsb' 24 4) &&& 0x00FFFFFF#32).toNat + (sa &&& 0x00FFFFFF#32).toNat

/-! ## Registers, trace and faults -/

/-- Write the per-frame registers. -/
def State.setRegs (s : State) (r : Regs) : State := { s with regs := r }

/-- `emit EV` (00_scope.md R11): the record carries a copy of the registers as they are now. -/
def State.emit (s : State) (e : Event) : State :=
  { s with trace := s.trace ++ [{ event := e, snap := s.regs }] }

/-- `raise Fault(code, info)` (00_scope.md R10, 60_exceptions.md R300, R301): RUN becomes `Faulted(code, info)`, and
nothing else changes: every effect before the fault stays. -/
def State.raise (s : State) (t : Trap) : State := { s with run := .faulted t }

/-! ## The display-list stack -/

/-- `STACK_MAX` (00_scope.md R5). -/
def stackMax : Nat := 32

/-- Write the live frames. -/
def State.setStack (s : State) (frames : List Frame) : State := { s with stack := frames }

/-- `push(a, c)` (10_state.md R34): at depth 32 the push is rejected and ERR_OVF set. -/
def State.push (s : State) (a : Nat) (c : Option Nat) : State :=
  if s.depth = stackMax then { s with errOvf := true }
  else s.setStack ({ addr := a, cnt := c } :: s.stack)

/-- `pop()` (10_state.md R35). With no frame there is nothing to pop: the spec calls it unreachable (log 10). -/
def State.pop (s : State) : Result :=
  match s.stack with
  | [] => .fault .emptyStack
  | _ :: below => .next (s.setStack below)

/-- `pc <- target` (10_state.md R21, 41_control.md R150): the top frame keeps its counter. -/
def State.branch (s : State) (target : Nat) : Result :=
  match s.stack with
  | [] => .fault .emptyStack
  | top :: below => .next (s.setStack ({ top with addr := target } :: below))

/-- What `fetch_extra()` answers. -/
inductive ExtraFetch where
  /-- the extra word, and the state with pc past it -/
  | word (e : DWord) (s : State)
  /-- the state after `raise` -/
  | trapped (s : State)
  /-- no frame to fetch from (log 10) -/
  | noFrame

/-- `fetch_extra()` (00_scope.md R12): no counter and no ICOUNT changes. -/
def State.fetchExtra (s : State) : ExtraFetch :=
  match s.stack with
  | [] => .noFrame
  | top :: below =>
    match s.fetchWord top.addr with
    | .error t => .trapped (s.raise t)
    | .ok e => .word e (s.setStack ({ top with addr := top.addr + 8 } :: below))

/-- A handler that fetches two extra words (40_dispatch_loop.md R125) and then goes on with them. A fault in either
fetch ends it, with the advance past a word already fetched in place (60_exceptions.md R301). -/
def State.withExtras (s : State) (body : DWord → DWord → State → Result) : Result :=
  match s.fetchExtra with
  | .noFrame => .fault .emptyStack
  | .trapped s' => .next s'
  | .word e1 s1 =>
    match s1.fetchExtra with
    | .noFrame => .fault .emptyStack
    | .trapped s' => .next s'
    | .word e2 s2 => body e1 e2 s2

/-- A handler that reads a record of `n` bytes at `a` (20_memory.md R63, R68) and then goes on with its bytes. A
fault ends it before it emits anything (00_scope.md R9). -/
def State.withRecord (s : State) (a n : Nat) (body : List Byte → State) : Result :=
  match s.readAligned a n with
  | .error t => .next (s.raise t)
  | .ok bytes => .next (body bytes)

/-! ## The dispatch step around the handler -/

/-- The debug ceiling (40_dispatch_loop.md R126). -/
def State.ceilingReached (s : State) : Bool :=
  match s.input.maxDispatch with
  | none => false
  | some m => m ≤ s.icount

/-- `finish()` (40_dispatch_loop.md R128). -/
def State.finish (s : State) : State :=
  { (s.emit .sceneEnd).emit .irqDone with run := .done }

/-- What the fetch does to the frame it fetches from (40_dispatch_loop.md R122): the address moves past the word,
and a counter loses one. -/
def Frame.fetched (f : Frame) : Frame :=
  { addr := f.addr + 8, cnt := f.cnt.map (· - 1) }

/-- The state after the fetch of an instruction from the top frame (40_dispatch_loop.md R122). -/
def State.afterFetch (s : State) (top : Frame) (below : List Frame) : State :=
  { s with stack := top.fetched :: below, icount := s.icount + 1 }

/-- What the part of `step()` before the handler answers (40_dispatch_loop.md R120). -/
inductive Fetched where
  /-- the step ends here: the Process finished, or the fetch faulted -/
  | ended (s : State)
  /-- the word fetched, and the state its handler sees (00_scope.md R9) -/
  | instruction (i : DWord) (s : State)

/-- `step()` up to the handler (40_dispatch_loop.md R120 to R122, R126), in the order of 60_exceptions.md R302. -/
def State.fetch (s : State) : Fetched :=
  match s.stack with
  | [] => .ended s.finish
  | top :: below =>
    if s.ceilingReached then .ended s.finish
    else
      match s.fetchWord top.addr with
      | .error t => .ended (s.raise t)
      | .ok i => .instruction i (s.afterFetch top below)

/-- The live frames once every frame on top whose counter is `some 0` is popped (40_dispatch_loop.md R124). -/
def dropExhausted : List Frame → List Frame
  | [] => []
  | f :: below => if f.cnt = some 0 then dropExhausted below else f :: below

/-- `step()` after the handler: the exhausted-frame pop (40_dispatch_loop.md R124). A raised fault has ended the
step (00_scope.md R10), so it pops nothing. -/
def State.afterHandler (s : State) : State :=
  if s.run = .running then s.setStack (dropExhausted s.stack) else s

/-- `step()` from the handler's outcome on. -/
def settle : Result → Result
  | .next s => .next s.afterHandler
  | .fault f => .fault f
  | .refused r => .refused r

/-! ## The start of a Process -/

/-- DETECT (40_dispatch_loop.md R114; log 1, log 2). -/
def State.detect (s : State) (task : Task) : ProfileId :=
  match s.cfg.detection with
  | .constant pid => pid
  | .implementation => Config.detect task.codeBase task.codeSize task.dataBase task.dataSize s.mem

/-- `resolve_profile(task)` (40_dispatch_loop.md R112): rebuilt only if invalid or if the code base differs. -/
def State.resolveProfile (s : State) (task : Task) : State :=
  if s.pcache.valid && s.pcache.codeBase == task.codeBase then s
  else
    let pid := s.detect task
    { s with pcache :=
        { valid := true, codeBase := task.codeBase, pid := pid, table := buildTable pid, vstride := vertexStride pid } }

/-- The entry point of a Process: `task.dlStart & 0x00FFFFFF`, not resolved (40_dispatch_loop.md R116). -/
def Task.entry (task : Task) : Nat := (task.dlStart &&& 0x00FFFFFF#32).toNat

/-- `per_frame_reset(task)` (40_dispatch_loop.md R116, 10_state.md R48). -/
def State.perFrameReset (s : State) (task : Task) : State :=
  { s with
    stack := [{ addr := task.entry, cnt := none }]
    icount := 0
    regs := clearedRegs s.cfg.scissorReset
    trace := [] }

/-- `Process(task)` up to its first step (40_dispatch_loop.md R115, R117), the inputs held for the whole Process. -/
def State.startProcess (s : State) (input : FrameInput) : State :=
  let s := { s with input := input }
  if input.rendererAvailable then
    let s := (s.resolveProfile input.task).perFrameReset input.task
    ({ s with run := .running }.emit (.mtxReset input.task.stackHint)).emit .sceneBegin
  else
    let s := (s.perFrameReset input.task).setStack []
    { s.emit .irqDone with run := .done }

/-! ## The host -/

/-- Power-on reset (70_reset_and_hazards.md R330, 10_state.md R52). Guest memory, the parameters and the host's
further moves are not the DLI's, and stay. -/
def State.powerOn (s : State) : State :=
  { State.reset with
    cfg := s.cfg
    regs := clearedRegs s.cfg.scissorReset
    mem := s.mem
    host := s.host }

/-- One move of the host (40_dispatch_loop.md R130). -/
def State.takeMove (s : State) : HostMove → Result
  | .powerOn => .next s.powerOn
  | .writeMemory addr bytes =>
    if addr + bytes.length ≤ s.cfg.memSize then .next { s with mem := Memory.writeBytes s.mem addr bytes }
    else .fault (.hostWriteOutOfRange addr)
  | .startProcess input => .next (s.startProcess input)

/-- Between Processes (40_dispatch_loop.md R115, 60_exceptions.md R312): the DLI does nothing but take the host's
next move, if there is one. -/
def State.betweenProcesses (s : State) : Result :=
  match s.host with
  | [] => .next s
  | move :: later => { s with host := later }.takeMove move

/-- In `Faulted` (60_exceptions.md R304): only power-on leaves it. -/
def State.whileFaulted (s : State) (t : Trap) : Result :=
  match s.host with
  | .powerOn :: later => .next { s with host := later }.powerOn
  | _ => .fault (.halted t)

/-! ## Placing a command where the next step fetches it -/

/-- The next step fetches a word whose three words lie in guest memory: Running, a frame with an aligned address,
the ceiling not reached, room for the longest command. -/
def State.readyToFetch (s : State) : Bool :=
  match s.stack with
  | [] => false
  | top :: _ => s.run == .running && top.addr % 8 == 0 && top.addr + 24 ≤ s.cfg.memSize && !s.ceilingReached

/-- `s` made to fetch: Running, one frame at offset 0, no ceiling, room for the longest command. -/
def State.madeReady (s : State) : State :=
  if s.readyToFetch then s
  else { s with
    run := .running
    stack := [{ addr := 0, cnt := none }]
    input := { s.input with maxDispatch := none }
    cfg := { s.cfg with memSize := max s.cfg.memSize 24 } }

/-- The command whose bits are `w` written at the top frame's address, and PCACHE loaded with REF+CNT (log 13). -/
def State.placeCommand (s : State) (nbits w : Nat) : State :=
  { s with
    mem := Memory.writeBytes s.mem (s.pc.getD 0) (tableBytes nbits w)
    pcache := { s.pcache with
      valid := true
      pid := .refCnt
      table := buildTable .refCnt
      vstride := vertexStride .refCnt } }

end Sys2Proof.Machine
end

