-- ==== Sys2Proof/Machine/Flags.lean ====
section
/-! DEFINITION. The mode bits. The DLI has no condition codes (10_state.md R22); its raster-mode and geometry-mode
flags are OMH, OML and GEOM (R43 to R45), and the cycle type is a field of OMH (R44). -/

namespace Sys2Proof.Machine

/-- The cycle type that `OMH[21:20]` names (10_state.md R44). -/
def cycleField (omh : Word) : BitVec 2 := omh.extractLsb' 20 2

/-- CYCLE = COPY (10_state.md R44). -/
def isCopy (omh : Word) : Bool := cycleField omh == 2#2

/-- CYCLE = FILL (10_state.md R44). -/
def isFill (omh : Word) : Bool := cycleField omh == 3#2

/-- `((2^len - 1) << sft) mod 2^32` (44_raster_state.md R202). -/
def otherModeMask (sft len : BitVec 8) : Word :=
  BitVec.ofNat 32 ((2 ^ len.toNat - 1) * 2 ^ sft.toNat)

/-- `(old & ~mask) | (data & mask)` (44_raster_state.md R202, R203). -/
def maskedWrite (old mask data : Word) : Word := (old &&& ~~~mask) ||| (data &&& mask)

/-- `GEOM | data` (44_raster_state.md R205). -/
def setFlags (old data : Word) : Word := old ||| data

/-- `GEOM & ~data` (44_raster_state.md R206). -/
def clearFlags (old data : Word) : Word := old &&& ~~~data

end Sys2Proof.Machine
end

