-- ==== Sys2Proof/Machine/Operands.lean ====
section
/-! DEFINITION. How fields and record bytes become operand values (30_encoding.md R83): fixed point (00_scope.md R8),
image descriptors, the scissor, rectangles and their tests (45_rectangles.md R232, R233, R235), and the matrix and
light decoders (46_matrix_light.md R263, R264). -/

namespace Sys2Proof.Machine

/-- `fx(raw, k) = raw / 2^k`, exact (00_scope.md R8). -/
def fx (raw : Int) (k : Nat) : Rat := mkRat raw (2 ^ k)

/-- The descriptor that an image-set instruction stores (42_addressing_image.md R170): `width = wm1 + 1`, the
address resolved now. -/
def State.imageDesc (s : State) (fmt : BitVec 3) (siz : BitVec 2) (wm1 : BitVec 12) (sa : Word) : ImageDesc :=
  { fmt := fmt, siz := siz, width := wm1.setWidth 13 + 1, addr := s.resolve sa }

/-- The segment a MOVEWORD offset names, `(ofs >> 2) & 0xF` (42_addressing_image.md R173). -/
def segmentNumber (ofs : BitVec 16) : BitVec 4 := ofs.extractLsb' 2 4

/-- A scissor coordinate in whole pixels, its fraction dropped (44_raster_state.md R200). -/
def wholePixels (v : BitVec 12) : Nat := (v >>> 2).toNat

/-- The scissor the four fields ask for (44_raster_state.md R200). -/
def requestedScissor (ulx uly lrx lry : BitVec 12) : Scissor :=
  { left := wholePixels ulx, top := wholePixels uly, right := wholePixels lrx, bottom := wholePixels lry }

/-- The test an accepted scissor meets (10_state.md R42, 44_raster_state.md R200). -/
def acceptable (r : Scissor) : Bool := r.left < r.right && r.top < r.bottom

/-- `a mod n`; `a mod 0` has no stated value (log 8). -/
def modulo (a n : Nat) : Nat := if n = 0 then Config.modZero a else a % n

/-- The title policy asks for a viewport recomputation (44_raster_state.md R200). -/
def State.viewportPolicyApplies (s : State) : Bool :=
  match s.input.policy.vpHackAlign with
  | none => false
  | some boundary => modulo s.regs.cimg.addr boundary != 0

/-- What COPY and FILL add to the far edges, in the quarter pixels of the position fields: 4, one whole pixel
(45_rectangles.md R233, "1, not 1/4"). -/
def farEdgeExtra (omh : Word) : Nat := if isCopy omh || isFill omh then 4 else 0

/-- `rect(xh, yh, xl, yl)` (45_rectangles.md R233): in COPY and FILL the far edge is inclusive, one pixel more. The
pixel is added to the raw value, before the division by 4. -/
def rectOf (omh : Word) (xh yh xl yl : BitVec 12) : Rect :=
  { x0 := fx xl.toNat 2
    y0 := fx yl.toNat 2
    x1 := fx (xh.toNat + farEdgeExtra omh) 2
    y1 := fx (yh.toNat + farEdgeExtra omh) 2 }

/-- `CI_SUPPORTED(CIMG.fmt, CIMG.siz)` (45_rectangles.md R232). -/
def State.imageSupported (s : State) : Bool :=
  s.cfg.ciSupported.contains (s.regs.cimg.fmt, s.regs.cimg.siz)

/-- Of no width or no height (45_rectangles.md R232). -/
def degenerate (r : Rect) : Bool := r.x1 ≤ r.x0 || r.y1 ≤ r.y0

/-- Fully outside the scissor (45_rectangles.md R232). -/
def outside (r : Rect) (c : Scissor) : Bool :=
  r.x1 < (c.left : Rat) || r.y1 < (c.top : Rat) || (c.right : Rat) < r.x0 || (c.bottom : Rat) < r.y0

/-- `gate` (45_rectangles.md R232). -/
def State.gate (s : State) (r : Rect) : Bool :=
  s.imageSupported && !degenerate r && !outside r s.regs.scissor

/-- `whole` (45_rectangles.md R235). -/
def State.coversFramebuffer (s : State) (r : Rect) : Bool :=
  r.x0 == 0 && r.y0 == 0 && r.x1 == (s.regs.cimg.width.toNat : Rat) && r.y1 == (s.regs.scissor.bottom : Rat)

/-- `clear_event` (45_rectangles.md R235). -/
def State.clearEvent (s : State) : Event :=
  if s.regs.cimg.addr = s.regs.zimg.addr then .clearDepth else .clearColor s.regs.fill

/-- The fraction bits of DS: 10, and two more in COPY, where the gradient is divided by 4 (45_rectangles.md R230). -/
def gradientBits (omh : Word) : Nat := if isCopy omh then 12 else 10

/-- S, T, DS and DT from the second halves of the two extra words (45_rectangles.md R230), each signed. -/
def texCoordsOf (omh : Word) (e1 e2 : DWord) : TexCoords :=
  { s := fx ((secondHalf e1).extractLsb' 16 16).toInt 5
    t := fx ((secondHalf e1).extractLsb' 0 16).toInt 5
    dsdx := fx ((secondHalf e2).extractLsb' 16 16).toInt (gradientBits omh)
    dtdy := fx ((secondHalf e2).extractLsb' 0 16).toInt 10 }

/-- Byte `k` of a record. -/
def recordByte (record : List Byte) (k : Nat) : Byte := record.getD k 0

/-- The 32-bit value `(hi << 16) | lo` of element `k` of a matrix record (46_matrix_light.md R263). -/
def matrixRaw (record : List Byte) (k : Nat) : Word :=
  recordByte record (2 * k) ++ recordByte record (2 * k + 1) ++
    recordByte record (32 + 2 * k) ++ recordByte record (32 + 2 * k + 1)

/-- Element `k`, signed 16.16 (46_matrix_light.md R263). -/
def matrixElement (record : List Byte) (k : Nat) : Rat := fx (matrixRaw record k).toInt 16

/-- Row `i` of the matrix (46_matrix_light.md R263). -/
def matrixRow (record : List Byte) (i : Nat) : Vector Rat 4 :=
  #v[matrixElement record (4 * i), matrixElement record (4 * i + 1),
     matrixElement record (4 * i + 2), matrixElement record (4 * i + 3)]

/-- `decode_matrix(B)` (46_matrix_light.md R263). -/
def decodeMatrix (record : List Byte) : Matrix4 :=
  #v[matrixRow record 0, matrixRow record 1, matrixRow record 2, matrixRow record 3]

/-- The direction of a light record, three signed bytes (46_matrix_light.md R264). -/
def lightDirection (record : List Byte) : Int × Int × Int :=
  ((recordByte record 8).toInt, (recordByte record 9).toInt, (recordByte record 10).toInt)

/-- The event that carries a light record's color (46_matrix_light.md R261, R264). -/
def lightColorEvent (n : Fin 8) (record : List Byte) : Event :=
  .lightColor n (recordByte record 0) (recordByte record 1) (recordByte record 2)

/-- The event that carries a light record's direction (46_matrix_light.md R261, R264). -/
def lightDirEvent (n : Fin 8) (record : List Byte) : Event :=
  let d := lightDirection record
  .lightDir n d.1 d.2.1 d.2.2

/-- The 128-bit raw viewport record (46_matrix_light.md R262). -/
def viewportValue (record : List Byte) : BitVec 128 := BitVec.ofNat 128 (bigEndian record)

end Sys2Proof.Machine
end

