-- ==== Sys2Proof/Machine/Control.lean ====
section
/-! DEFINITION. The control instructions (41_control.md). -/

namespace Sys2Proof.Machine

/-- DL (41_control.md R150): `p = 0` calls, any other `p` branches. `len` is ignored. -/
def execDl (p : BitVec 8) (_len : BitVec 16) (sa : Word) (s : State) : Result :=
  if p = 0 then .next (s.push (s.resolve sa) none) else s.branch (s.resolve sa)

/-- ENDDL (41_control.md R151). -/
def execEnddl (s : State) : Result := s.pop

/-- DLCNT (41_control.md R152): a call with a budget of `p` instructions. `len` is ignored. -/
def execDlcnt (p : BitVec 8) (_len : BitVec 16) (sa : Word) (s : State) : Result :=
  .next (s.push (s.resolve sa) (some p.toNat))

/-- UNKNOWN (41_control.md R153): an unbound opcode ends the current list. -/
def execUnknown (_op : BitVec 8) (s : State) : Result := s.pop

end Sys2Proof.Machine
end

