-- ==== Sys2Proof/Machine/Image.lean ====
section
/-! DEFINITION. The addressing and image-set instructions (42_addressing_image.md). -/

namespace Sys2Proof.Machine

/-- SETTIMG (42_addressing_image.md R170). -/
def execSettimg (fmt : BitVec 3) (siz : BitVec 2) (wm1 : BitVec 12) (sa : Word) (s : State) : Result :=
  .next (s.setRegs { s.regs with timg := s.imageDesc fmt siz wm1 sa })

/-- SETCIMG (42_addressing_image.md R171). -/
def execSetcimg (fmt : BitVec 3) (siz : BitVec 2) (wm1 : BitVec 12) (sa : Word) (s : State) : Result :=
  .next (s.setRegs { s.regs with cimg := s.imageDesc fmt siz wm1 sa })

/-- SETZIMG (42_addressing_image.md R172). -/
def execSetzimg (fmt : BitVec 3) (siz : BitVec 2) (wm1 : BitVec 12) (sa : Word) (s : State) : Result :=
  .next (s.setRegs { s.regs with zimg := s.imageDesc fmt siz wm1 sa })

/-- MOVEWORD with index 6 (42_addressing_image.md R173): set one segment base, all 32 bits. -/
def execMovewordSegment (ofs : BitVec 16) (data : Word) (s : State) : Result :=
  .next (s.setSegment (segmentNumber ofs) data)

end Sys2Proof.Machine
end

