-- ==== Sys2Proof/Machine/Load.lean ====
section
/-! DEFINITION. The matrix, light and viewport loads (46_matrix_light.md). -/

namespace Sys2Proof.Machine

/-- MTX (46_matrix_light.md R260). `len` is ignored: the record is always 64 bytes. -/
def execMtx (p : BitVec 8) (_len : BitVec 16) (sa : Word) (s : State) : Result :=
  s.withRecord (s.resolve sa) 64 fun record => s.emit (.matrix p (decodeMatrix record))

/-- The color event, and the direction event unless the direction is the sentinel (0, 0, 0) (46_matrix_light.md R261). -/
def State.emitLight (s : State) (n : Fin 8) (record : List Byte) : State :=
  let s := s.emit (lightColorEvent n record)
  if lightDirection record = (0, 0, 0) then s else s.emit (lightDirEvent n record)

/-- MOVEMEM of light `n` (46_matrix_light.md R261). -/
def State.loadLight (s : State) (n : Fin 8) (sa : Word) : Result :=
  s.withRecord (s.resolve sa) 16 fun record => s.emitLight n record

/-- MOVEMEM_VIEWPORT (46_matrix_light.md R262). `len` is ignored. -/
def execMovememViewport (_len : BitVec 16) (sa : Word) (s : State) : Result :=
  s.withRecord (s.resolve sa) 16 fun record => s.emit (.viewport (viewportValue record))

/-- MOVEMEM_LIGHT0 (46_matrix_light.md R261, `p = 0x86`). `len` is ignored. -/
def execMovememLight0 (_len : BitVec 16) (sa : Word) (s : State) : Result := s.loadLight 0 sa

/-- MOVEMEM_LIGHT1 (46_matrix_light.md R261, `p = 0x88`). `len` is ignored. -/
def execMovememLight1 (_len : BitVec 16) (sa : Word) (s : State) : Result := s.loadLight 1 sa

/-- MOVEMEM_LIGHT2 (46_matrix_light.md R261, `p = 0x8A`). `len` is ignored. -/
def execMovememLight2 (_len : BitVec 16) (sa : Word) (s : State) : Result := s.loadLight 2 sa

/-- MOVEMEM_LIGHT3 (46_matrix_light.md R261, `p = 0x8C`). `len` is ignored. -/
def execMovememLight3 (_len : BitVec 16) (sa : Word) (s : State) : Result := s.loadLight 3 sa

/-- MOVEMEM_LIGHT4 (46_matrix_light.md R261, `p = 0x8E`). `len` is ignored. -/
def execMovememLight4 (_len : BitVec 16) (sa : Word) (s : State) : Result := s.loadLight 4 sa

/-- MOVEMEM_LIGHT5 (46_matrix_light.md R261, `p = 0x90`). `len` is ignored. -/
def execMovememLight5 (_len : BitVec 16) (sa : Word) (s : State) : Result := s.loadLight 5 sa

/-- MOVEMEM_LIGHT6 (46_matrix_light.md R261, `p = 0x92`). `len` is ignored. -/
def execMovememLight6 (_len : BitVec 16) (sa : Word) (s : State) : Result := s.loadLight 6 sa

/-- MOVEMEM_LIGHT7 (46_matrix_light.md R261, `p = 0x94`). `len` is ignored. -/
def execMovememLight7 (_len : BitVec 16) (sa : Word) (s : State) : Result := s.loadLight 7 sa

end Sys2Proof.Machine
end

