-- ==== Sys2Proof/Machine/PassThrough.lean ====
section
/-! DEFINITION. The accepted no-ops and the opaque pass-through instructions (47_passthrough.md). -/

namespace Sys2Proof.Machine

/-- EXTERN(name) (47_passthrough.md R290), whatever the name: one opaque event, nothing else. -/
def State.passThrough (s : State) (name : ExternName) (w0 w1 : Word) : Result := .next (s.emit (.extern name w0 w1))

/-- SPNOOP (47_passthrough.md R280): no effect beyond the fetch. -/
def execSpnoop (s : State) : Result := .next s

/-- NOOP (47_passthrough.md R281): no effect beyond the fetch. -/
def execNoop (s : State) : Result := .next s

/-- RDPHALF_1 (47_passthrough.md R282), dispatched on its own: its data is dropped. -/
def execRdphalf1 (s : State) : Result := .next s

/-- RDPHALF_2 (47_passthrough.md R283), dispatched on its own: its data is dropped. -/
def execRdphalf2 (s : State) : Result := .next s

/-- LOADSYNC (47_passthrough.md R284): no effect beyond the fetch. -/
def execLoadsync (s : State) : Result := .next s

/-- PIPESYNC (47_passthrough.md R285): no effect beyond the fetch. -/
def execPipesync (s : State) : Result := .next s

/-- TILESYNC (47_passthrough.md R286): no effect beyond the fetch. -/
def execTilesync (s : State) : Result := .next s

/-- FULLSYNC (47_passthrough.md R287): it raises no completion signal. -/
def execFullsync (s : State) : Result := .next s

/-- TRI_RDP (47_passthrough.md R288): no effect beyond the fetch, and no extra word is fetched. -/
def execTriRdp (_variant : BitVec 3) (s : State) : Result := .next s

/-- VTX (47_passthrough.md R291). -/
def execVtx (w0 w1 : Word) (s : State) : Result := s.passThrough .vtx w0 w1

/-- LINE3D (47_passthrough.md R292). -/
def execLine3d (w0 w1 : Word) (s : State) : Result := s.passThrough .line3d w0 w1

/-- TEXTURE (47_passthrough.md R293). -/
def execTexture (w0 w1 : Word) (s : State) : Result := s.passThrough .texture w0 w1

/-- POPMTX (47_passthrough.md R294). -/
def execPopmtx (w0 w1 : Word) (s : State) : Result := s.passThrough .popmtx w0 w1

/-- CULLDL (47_passthrough.md R295). -/
def execCulldl (w0 w1 : Word) (s : State) : Result := s.passThrough .culldl w0 w1

/-- TRI1 (47_passthrough.md R296). -/
def execTri1 (w0 w1 : Word) (s : State) : Result := s.passThrough .tri1 w0 w1

/-- MOVEWORD_X (47_passthrough.md R297). -/
def execMovewordX (w0 w1 : Word) (s : State) : Result := s.passThrough .movewordX w0 w1

/-- MOVEMEM_X (47_passthrough.md R298). -/
def execMovememX (w0 w1 : Word) (s : State) : Result := s.passThrough .movememX w0 w1

/-- SETPRIMDEPTH (47_passthrough.md R299). -/
def execSetprimdepth (w0 w1 : Word) (s : State) : Result := s.passThrough .setprimdepth w0 w1

/-- A custom profile's override handler, under its own mnemonic (47_passthrough.md R290, 92_eei_decisions.md D32). -/
def execExternCustom (mnemonic : String) (w0 w1 : Word) (s : State) : Result := s.passThrough (.custom mnemonic) w0 w1

end Sys2Proof.Machine
end

