-- ==== Sys2Proof/Machine/Raster.lean ====
section
/-! DEFINITION. The raster-state instructions (44_raster_state.md). -/

namespace Sys2Proof.Machine

/-- An accepted scissor is stored and announced, a rejected one changes nothing (44_raster_state.md R200). -/
def State.offerScissor (s : State) (r : Scissor) : State :=
  if acceptable r then
    (s.setRegs { s.regs with scissor := r }).emit (.scissor r.left r.top r.right r.bottom)
  else s

/-- The policy's viewport event, after either outcome of the scissor test (44_raster_state.md R200). -/
def State.announceViewport (s : State) : State :=
  if s.viewportPolicyApplies then s.emit .viewportFromRegion else s

/-- SETSCISSOR (44_raster_state.md R200). `mode` is ignored. -/
def execSetscissor (ulx uly : BitVec 12) (_mode : BitVec 2) (lrx lry : BitVec 12) (s : State) : Result :=
  .next (s.offerScissor (requestedScissor ulx uly lrx lry)).announceViewport

/-- SETFILLCOLOR (44_raster_state.md R201). -/
def execSetfillcolor (data : Word) (s : State) : Result := .next (s.setRegs { s.regs with fill := data })

/-- SETOTHERMODE_H (44_raster_state.md R202). -/
def execSetothermodeH (sft len : BitVec 8) (data : Word) (s : State) : Result :=
  .next (s.setRegs { s.regs with omh := maskedWrite s.regs.omh (otherModeMask sft len) data })

/-- SETOTHERMODE_L (44_raster_state.md R203). -/
def execSetothermodeL (sft len : BitVec 8) (data : Word) (s : State) : Result :=
  .next (s.setRegs { s.regs with oml := maskedWrite s.regs.oml (otherModeMask sft len) data })

/-- RDPSETOTHERMODE (44_raster_state.md R204): both registers replaced, `OMH[31:24]` becoming 0. -/
def execRdpsetothermode (omh : BitVec 24) (oml : Word) (s : State) : Result :=
  .next (s.setRegs { s.regs with omh := omh.setWidth 32, oml := oml })

/-- SETGEOMETRYMODE (44_raster_state.md R205). -/
def execSetgeometrymode (data : Word) (s : State) : Result :=
  .next (s.setRegs { s.regs with geom := setFlags s.regs.geom data })

/-- CLEARGEOMETRYMODE (44_raster_state.md R206). -/
def execCleargeometrymode (data : Word) (s : State) : Result :=
  .next (s.setRegs { s.regs with geom := clearFlags s.regs.geom data })

/-- SETCOMBINE (44_raster_state.md R207). -/
def execSetcombine (mux0 : BitVec 24) (mux1 : Word) (s : State) : Result :=
  .next ((s.setRegs { s.regs with combine := { mux0 := mux0, mux1 := mux1 } }).emit (.combine mux0 mux1))

/-- SETPRIMCOLOR (44_raster_state.md R208). -/
def execSetprimcolor (m l : BitVec 8) (color : Word) (s : State) : Result :=
  .next ((s.setRegs { s.regs with prim := { color := color, m := m, l := l } }).emit (.prim color m l))

/-- SETENVCOLOR (44_raster_state.md R209). -/
def execSetenvcolor (data : Word) (s : State) : Result :=
  .next ((s.setRegs { s.regs with env := data }).emit (.env data))

/-- SETFOGCOLOR (44_raster_state.md R210). -/
def execSetfogcolor (data : Word) (s : State) : Result :=
  .next ((s.setRegs { s.regs with fog := data }).emit (.fog data))

/-- SETBLENDCOLOR (44_raster_state.md R211). -/
def execSetblendcolor (data : Word) (s : State) : Result :=
  .next ((s.setRegs { s.regs with blend := data }).emit (.blend data))

/-- SETKEYR (44_raster_state.md R212): accepted, nothing changes. -/
def execSetkeyr (s : State) : Result := .next s

/-- SETKEYGB (44_raster_state.md R213): accepted, nothing changes. -/
def execSetkeygb (s : State) : Result := .next s

/-- SETCONVERT (44_raster_state.md R214): accepted, nothing changes. -/
def execSetconvert (s : State) : Result := .next s

end Sys2Proof.Machine
end

