-- ==== Sys2Proof/Machine/Rectangle.lean ====
section
/-! DEFINITION. The rectangle instructions (45_rectangles.md). -/

namespace Sys2Proof.Machine

/-- Emit a textured rectangle's event if the rectangle is drawn (45_rectangles.md R230, R232). -/
def State.drawTextured (s : State) (r : Rect) (e : Event) : State :=
  if s.gate r then s.emit e else s

/-- TEXRECT (45_rectangles.md R230). -/
def execTexrect (xh yh : BitVec 12) (tile : BitVec 3) (xl yl : BitVec 12) (s : State) : Result :=
  s.withExtras fun e1 e2 s =>
    let r := rectOf s.regs.omh xh yh xl yl
    .next (s.drawTextured r (.texRect tile r (texCoordsOf s.regs.omh e1 e2)))

/-- TEXRECTFLIP (45_rectangles.md R231): the renderer swaps the axes, told by the event's kind. -/
def execTexrectflip (xh yh : BitVec 12) (tile : BitVec 3) (xl yl : BitVec 12) (s : State) : Result :=
  s.withExtras fun e1 e2 s =>
    let r := rectOf s.regs.omh xh yh xl yl
    .next (s.drawTextured r (.texRectFlip tile r (texCoordsOf s.regs.omh e1 e2)))

/-- The clear case of a filled rectangle (45_rectangles.md R234): FILL mode, the policy's leave, the whole framebuffer. -/
def State.clearsFramebuffer (s : State) (r : Rect) : Bool :=
  isFill s.regs.omh && s.input.policy.wholeScreenClear && s.coversFramebuffer r

/-- A filled rectangle (45_rectangles.md R234): format test, clear test, then the degenerate and scissor tests. -/
def State.fillRectangle (s : State) (r : Rect) : State :=
  if !s.imageSupported then s
  else if s.clearsFramebuffer r then s.emit s.clearEvent
  else if degenerate r then s
  else if outside r s.regs.scissor then s
  else s.emit (.fillRect r s.regs.fill)

/-- FILLRECT (45_rectangles.md R234). -/
def execFillrect (xh yh xl yl : BitVec 12) (s : State) : Result :=
  .next (s.fillRectangle (rectOf s.regs.omh xh yh xl yl))

end Sys2Proof.Machine
end

