-- ==== Sys2Proof/Machine/Tile.lean ====
section
/-! DEFINITION. The tile and texel-management instructions (43_tile.md): each is forwarded verbatim. -/

namespace Sys2Proof.Machine

/-- SETTILE (43_tile.md R190). -/
def execSettile (w0 w1 : Word) (s : State) : Result := .next (s.emit (.setTile w0 w1))

/-- SETTILESIZE (43_tile.md R191). -/
def execSettilesize (w0 w1 : Word) (s : State) : Result := .next (s.emit (.setTileSize w0 w1))

/-- LOADTILE (43_tile.md R192). -/
def execLoadtile (w0 w1 : Word) (s : State) : Result := .next (s.emit (.loadTile w0 w1))

/-- LOADBLOCK (43_tile.md R193). -/
def execLoadblock (w0 w1 : Word) (s : State) : Result := .next (s.emit (.loadBlock w0 w1))

/-- LOADTLUT (43_tile.md R194). -/
def execLoadtlut (w0 w1 : Word) (s : State) : Result := .next (s.emit (.loadTlut w0 w1))

end Sys2Proof.Machine
end

