-- ==== Sys2Proof/Machine/Dispatch.lean ====
section
/-! DEFINITION. The dispatch from each instruction to its meaning (40_dispatch_loop.md R123). -/

namespace Sys2Proof.Machine

def exec (i : Instr) (s : State) : Host.Outcome State Fault Refusal :=
  match i with
  | .spnoop => Sys2Proof.Machine.execSpnoop s
  | .mtx p len sa => Sys2Proof.Machine.execMtx p len sa s
  | .movememViewport len sa => Sys2Proof.Machine.execMovememViewport len sa s
  | .movememLight0 len sa => Sys2Proof.Machine.execMovememLight0 len sa s
  | .movememLight1 len sa => Sys2Proof.Machine.execMovememLight1 len sa s
  | .movememLight2 len sa => Sys2Proof.Machine.execMovememLight2 len sa s
  | .movememLight3 len sa => Sys2Proof.Machine.execMovememLight3 len sa s
  | .movememLight4 len sa => Sys2Proof.Machine.execMovememLight4 len sa s
  | .movememLight5 len sa => Sys2Proof.Machine.execMovememLight5 len sa s
  | .movememLight6 len sa => Sys2Proof.Machine.execMovememLight6 len sa s
  | .movememLight7 len sa => Sys2Proof.Machine.execMovememLight7 len sa s
  | .movememX w0 w1 => Sys2Proof.Machine.execMovememX w0 w1 s
  | .vtx w0 w1 => Sys2Proof.Machine.execVtx w0 w1 s
  | .dl p len sa => Sys2Proof.Machine.execDl p len sa s
  | .dlcnt p len sa => Sys2Proof.Machine.execDlcnt p len sa s
  | .rdphalf2 => Sys2Proof.Machine.execRdphalf2 s
  | .rdphalf1 => Sys2Proof.Machine.execRdphalf1 s
  | .line3d w0 w1 => Sys2Proof.Machine.execLine3d w0 w1 s
  | .cleargeometrymode data => Sys2Proof.Machine.execCleargeometrymode data s
  | .setgeometrymode data => Sys2Proof.Machine.execSetgeometrymode data s
  | .enddl => Sys2Proof.Machine.execEnddl s
  | .setothermodeL sft len data => Sys2Proof.Machine.execSetothermodeL sft len data s
  | .setothermodeH sft len data => Sys2Proof.Machine.execSetothermodeH sft len data s
  | .texture w0 w1 => Sys2Proof.Machine.execTexture w0 w1 s
  | .movewordSegment ofs data => Sys2Proof.Machine.execMovewordSegment ofs data s
  | .movewordX w0 w1 => Sys2Proof.Machine.execMovewordX w0 w1 s
  | .popmtx w0 w1 => Sys2Proof.Machine.execPopmtx w0 w1 s
  | .culldl w0 w1 => Sys2Proof.Machine.execCulldl w0 w1 s
  | .tri1 w0 w1 => Sys2Proof.Machine.execTri1 w0 w1 s
  | .noop => Sys2Proof.Machine.execNoop s
  | .triRdp variant => Sys2Proof.Machine.execTriRdp variant s
  | .texrect xh yh tile xl yl => Sys2Proof.Machine.execTexrect xh yh tile xl yl s
  | .texrectflip xh yh tile xl yl => Sys2Proof.Machine.execTexrectflip xh yh tile xl yl s
  | .loadsync => Sys2Proof.Machine.execLoadsync s
  | .pipesync => Sys2Proof.Machine.execPipesync s
  | .tilesync => Sys2Proof.Machine.execTilesync s
  | .fullsync => Sys2Proof.Machine.execFullsync s
  | .setkeygb => Sys2Proof.Machine.execSetkeygb s
  | .setkeyr => Sys2Proof.Machine.execSetkeyr s
  | .setconvert => Sys2Proof.Machine.execSetconvert s
  | .setscissor ulx uly mode lrx lry => Sys2Proof.Machine.execSetscissor ulx uly mode lrx lry s
  | .setprimdepth w0 w1 => Sys2Proof.Machine.execSetprimdepth w0 w1 s
  | .rdpsetothermode omh oml => Sys2Proof.Machine.execRdpsetothermode omh oml s
  | .loadtlut w0 w1 => Sys2Proof.Machine.execLoadtlut w0 w1 s
  | .settilesize w0 w1 => Sys2Proof.Machine.execSettilesize w0 w1 s
  | .loadblock w0 w1 => Sys2Proof.Machine.execLoadblock w0 w1 s
  | .loadtile w0 w1 => Sys2Proof.Machine.execLoadtile w0 w1 s
  | .settile w0 w1 => Sys2Proof.Machine.execSettile w0 w1 s
  | .fillrect xh yh xl yl => Sys2Proof.Machine.execFillrect xh yh xl yl s
  | .setfillcolor data => Sys2Proof.Machine.execSetfillcolor data s
  | .setfogcolor data => Sys2Proof.Machine.execSetfogcolor data s
  | .setblendcolor data => Sys2Proof.Machine.execSetblendcolor data s
  | .setprimcolor m l color => Sys2Proof.Machine.execSetprimcolor m l color s
  | .setenvcolor data => Sys2Proof.Machine.execSetenvcolor data s
  | .setcombine mux0 mux1 => Sys2Proof.Machine.execSetcombine mux0 mux1 s
  | .settimg fmt siz wm1 sa => Sys2Proof.Machine.execSettimg fmt siz wm1 sa s
  | .setzimg fmt siz wm1 sa => Sys2Proof.Machine.execSetzimg fmt siz wm1 sa s
  | .setcimg fmt siz wm1 sa => Sys2Proof.Machine.execSetcimg fmt siz wm1 sa s
  | .externCustom mnemonic w0 w1 => Sys2Proof.Machine.execExternCustom mnemonic w0 w1 s
  | .unknown op => Sys2Proof.Machine.execUnknown op s

end Sys2Proof.Machine
end

