-- ==== Sys2Proof/Machine/Step.lean ====
section
/-! DEFINITION. One step of the machine (40_dispatch_loop.md R115, R120, 60_exceptions.md R304), and how the host's
checks place an instruction where the next step fetches it. -/

namespace Sys2Proof.Machine

/-- One step while RUN is Running (40_dispatch_loop.md R120): fetch, decode through PCACHE.table, run the handler,
pop the exhausted frames. -/
def stepRunning (s : State) : Host.Outcome State Fault Refusal :=
  match s.fetch with
  | .ended s' => .next s'
  | .instruction i s' => settle (exec (decodeDWord s.pcache.table i) s')

/-- One step: a dispatch step while Running, else the host's next move; a faulted machine has no successor but power-on. -/
def step (s : State) : Host.Outcome State Fault Refusal :=
  match s.run with
  | .running => stepRunning s
  | .idle => s.betweenProcesses
  | .done => s.betweenProcesses
  | .faulted t => s.whileFaulted t

/-- `s` with the command whose bits are `w`, numbered as spec/opcode_table.json numbers them, stored where the next
step fetches, under the profile REF+CNT, which binds every row of the opcode table (log 13). It stands for a Process
that the host has started on that command. -/
def State.withFetchWord (s : State) (nbits w : Nat) : State := s.madeReady.placeCommand nbits w

end Sys2Proof.Machine
end

