-- ==== Sys2Proof/Safety.lean ====
section
/-! DEFINITION. What the host observes of a Process and when it has ended (40_dispatch_loop.md R129), the
invariants of the machine, and the terms the statements use. -/

namespace Sys2Proof

/-! ## Classes of instructions -/

/-- The accepted no-ops: instructions that change nothing after the fetch (44_raster_state.md R212 to R214,
47_passthrough.md R280 to R288). -/
def Instr.isNoOp : Instr → Bool
  | .spnoop | .noop | .rdphalf1 | .rdphalf2 | .loadsync | .pipesync | .tilesync | .fullsync
  | .triRdp _ | .setkeyr | .setkeygb | .setconvert => true
  | _ => false

/-- The instructions whose handler reads guest memory: two extra words, or a record (20_memory.md R60, R63). -/
def Instr.readsMemory : Instr → Bool
  | .texrect _ _ _ _ _ | .texrectflip _ _ _ _ _ | .mtx _ _ _ | .movememViewport _ _
  | .movememLight0 _ _ | .movememLight1 _ _ | .movememLight2 _ _ | .movememLight3 _ _
  | .movememLight4 _ _ | .movememLight5 _ _ | .movememLight6 _ _ | .movememLight7 _ _ => true
  | _ => false

/-- The instructions whose handler pushes, pops or branches (41_control.md R150 to R153). -/
def Instr.steersStack : Instr → Bool
  | .dl _ _ _ | .enddl | .dlcnt _ _ _ | .unknown _ => true
  | _ => false

/-- The straight-line instructions: those whose handler neither steers the stack nor reads guest memory
(40_dispatch_loop.md R125). -/
def Instr.isStraightLine (i : Instr) : Bool := !i.steersStack && !i.readsMemory

/-- The calls: a DL with push flag 0, and a DLCNT (41_control.md R150, R152). -/
def Instr.isCall : Instr → Bool
  | .dl p _ _ => p == 0
  | .dlcnt _ _ _ => true
  | _ => false

/-- The MOVEMEM instruction of light `n` (46_matrix_light.md R261). -/
def Instr.lightLoad (n : Fin 8) (len : BitVec 16) (sa : Word) : Instr :=
  match n with
  | 0 => .movememLight0 len sa
  | 1 => .movememLight1 len sa
  | 2 => .movememLight2 len sa
  | 3 => .movememLight3 len sa
  | 4 => .movememLight4 len sa
  | 5 => .movememLight5 len sa
  | 6 => .movememLight6 len sa
  | 7 => .movememLight7 len sa

/-- The bits of a word that the format of its handler names, the opcode among them (30_encoding.md R82); a handler
that forwards the word whole takes all of it (43_tile.md, 47_passthrough.md R290). -/
def Handler.namedBits : Handler → DWord
  | .dl | .dlcnt | .mtx | .movemem | .moveword | .setcombine | .rdpsetothermode => 0xFFFFFFFF_FFFFFFFF
  | .settile | .settilesize | .loadtile | .loadblock | .loadtlut | .extern _ => 0xFFFFFFFF_FFFFFFFF
  | .setothermodeH | .setothermodeL | .setprimcolor => 0xFF00FFFF_FFFFFFFF
  | .setgeometrymode | .cleargeometrymode | .setfillcolor | .setenvcolor | .setfogcolor | .setblendcolor =>
    0xFF000000_FFFFFFFF
  | .settimg | .setcimg | .setzimg => 0xFFF80FFF_FFFFFFFF
  | .setscissor => 0xFFFFFFFF_03FFFFFF
  | .fillrect => 0xFFFFFFFF_00FFFFFF
  | .texrect | .texrectflip => 0xFFFFFFFF_07FFFFFF
  | .enddl | .unknown | .setkeyr | .setkeygb | .setconvert | .nop _ => 0xFF000000_00000000

end Sys2Proof

namespace Sys2Proof.Machine

/-- What the host gets back of an ended Process (40_dispatch_loop.md R129). -/
structure Observation where
  trace : List TraceRecord
  regs : Regs
  seg : Vector Word 16
  pcache : ProfileCache
  errOvf : Bool
  depth : Nat
  icount : Nat
  deriving DecidableEq, Repr

/-- The observation of an ended Process; a run that is Running or Faulted has not ended (40_dispatch_loop.md R129). -/
def State.observation (s : State) : Option Observation :=
  match s.run with
  | .done => some
      { trace := s.trace, regs := s.regs, seg := s.seg, pcache := s.pcache,
        errOvf := s.errOvf, depth := s.depth, icount := s.icount }
  | _ => none

/-- The spec vouches for the run: no push was rejected (10_state.md R39). -/
def State.vouchedFor (s : State) : Bool := !s.errOvf

/-- The stack invariant (10_state.md R36): at most 32 frames, and while Running the frame on top has budget left. -/
def State.StackInv (s : State) : Prop :=
  s.depth ≤ stackMax ∧
  (s.run = .running → ∀ top ∈ s.stack.head?, top.cnt ≠ some 0)

/-- A descriptor's address fits 25 bits and its width is at most 4096 (10_state.md R40). -/
def ImageDesc.InRange (d : ImageDesc) : Prop := d.addr < 2 ^ 25 ∧ d.width.toNat ≤ 4096

/-- The ranges of the per-frame registers (10_state.md R40, R42): descriptors in range; the scissor is the reset
one or meets its own test, with every coordinate at most 1023. -/
def Regs.InRange (scissorReset : Scissor) (r : Regs) : Prop :=
  r.timg.InRange ∧ r.cimg.InRange ∧ r.zimg.InRange ∧
  (r.scissor = scissorReset ∨
    (r.scissor.left < r.scissor.right ∧ r.scissor.top < r.scissor.bottom ∧
      r.scissor.right ≤ 1023 ∧ r.scissor.bottom ≤ 1023))

/-- The last record of the trace is the completion signal and no other record is one (60_exceptions.md R305). -/
def SignalledOnceLast (trace : List TraceRecord) : Prop :=
  ∃ earlier snap, trace = earlier ++ [{ event := .irqDone, snap := snap }] ∧
    ∀ r ∈ earlier, r.event ≠ .irqDone

/-- The completion signal (60_exceptions.md R305): once and last in a Process that is Done, never in one that is
Running or has faulted. -/
def State.SignalInv (s : State) : Prop :=
  match s.run with
  | .idle => s.trace = []
  | .done => SignalledOnceLast s.trace
  | .running => ∀ r ∈ s.trace, r.event ≠ .irqDone
  | .faulted _ => ∀ r ∈ s.trace, r.event ≠ .irqDone

/-! ## Terms of the statements -/

/-- `sext_N(v)` (00_scope.md R7) of a number below `2^bits`. -/
def sext (bits v : Nat) : Int := if v < 2 ^ (bits - 1) then v else (v : Int) - 2 ^ bits

/-- The byte of guest memory at `a`, as a number. -/
def State.byteAt (s : State) (a : Nat) : Nat := (Memory.read s.mem a).toNat

/-- The 16-bit unit of guest memory at `a`, big-endian (20_memory.md R62). -/
def State.halfAt (s : State) (a : Nat) : Nat := s.byteAt a * 256 + s.byteAt (a + 1)

/-- The 32-bit word of guest memory at `a`, big-endian (20_memory.md R62). -/
def State.wordAt32 (s : State) (a : Nat) : Nat := s.halfAt a * 65536 + s.halfAt (a + 2)

/-- `resolve` in numbers (20_memory.md R65): segment `sa[27:24]`, base and offset modulo 2^24. -/
def State.resolved (s : State) (sa : Word) : Nat :=
  (s.segment (BitVec.ofNat 4 (sa.toNat / 2 ^ 24 % 16))).toNat % 2 ^ 24 + sa.toNat % 2 ^ 24

/-- CYCLE (10_state.md R44): `OMH[21:20]` as a number, 2 being COPY and 3 FILL. -/
def Regs.cycle (r : Regs) : Nat := r.omh.toNat / 2 ^ 20 % 4

/-- The state with one more trace record, its snapshot the registers as they are. -/
def State.announced (s : State) (e : Event) : State :=
  { s with trace := s.trace ++ [{ event := e, snap := s.regs }] }

/-- The same outcome with the next state changed by `f`. -/
def onNext (f : State → State) : Host.Outcome State Fault Refusal → Host.Outcome State Fault Refusal
  | .next s => .next (f s)
  | .fault r => .fault r
  | .refused r => .refused r

/-- The state without what never steers the DLI (10_state.md R22, R31, R39, R40, R43 to R47): TIMG, OML, GEOM, COMBINE
and the constant colors cleared, OMH reduced to its cycle type, ERR_OVF and the vertex stride cleared, and the trace
reduced to its events. -/
def State.withoutOpaque (s : State) : State :=
  { s with
    pcache := { s.pcache with vstride := 0 }
    errOvf := false
    regs := { s.regs with
      timg := .cleared, omh := s.regs.omh &&& 0x00300000#32, oml := 0, geom := 0,
      combine := { mux0 := 0, mux1 := 0 }, prim := { color := 0, m := 0, l := 0 },
      env := 0, fog := 0, blend := 0 }
    trace := s.trace.map fun r => { r with snap := clearedRegs s.cfg.scissorReset } }

/-- Under REF+CNT every word whose opcode byte is `op` decodes to what `form` makes of its two halves (30_encoding.md
R80, R82, R86); `w.extractLsb' k n` is the field `w[k+n-1:k]`. -/
def ReadsAs (op : BitVec 8) (form : Word → Word → Instr) : Prop :=
  ∀ w0 w1 : Word, w0.extractLsb' 24 8 = op → decodeDWord (buildTable .refCnt) (joinHalves w0 w1) = form w0 w1

/-- The dispatch step has fetched: Running, `top` on the stack, the ceiling not reached, the fetch aligned and in
range (40_dispatch_loop.md R120). -/
def State.Fetches (s : State) (top : Frame) (below : List Frame) : Prop :=
  s.run = .running ∧ s.stack = top :: below ∧ s.ceilingReached = false ∧
  top.addr % 8 = 0 ∧ top.addr + 8 ≤ s.cfg.memSize

/-- The instruction at `a` under the machine's profile, read from the eight bytes there. -/
def State.instrAt (s : State) (a : Nat) : Option Instr :=
  match decodeBytes s.pcache.table (Memory.readBytes s.mem a 8) with
  | .ok (i, _) => some i
  | .error _ => none

/-- The state a handler sees (00_scope.md R9, 40_dispatch_loop.md R122): pc past the word, one less in the counter,
the dispatch counted. -/
def State.seenByHandler (s : State) (top : Frame) (below : List Frame) : State :=
  { s with
    stack := { addr := top.addr + 8, cnt := top.cnt.map (· - 1) } :: below
    icount := s.icount + 1 }

end Sys2Proof.Machine
end

