-- ==== Sys2Proof/Certificates/Slice0/Obligations.lean ====
section
/-! DEFINITION. The statements for the provers, rule by rule. No statement rests on a value the model chose unless
its docstring says so. -/

open Sys2Proof Sys2Proof.Machine

/-! ## Encoding (30_encoding.md) -/

/-- Under every profile table and in every slot, a well-formed instruction's word decodes to it: no operand bit is
dropped (30_encoding.md R82, R86, R88). -/
def Obligations.DecodeOfEncodeIsTheInstruction : Prop :=
  ∀ (t : Table) (op : BitVec 8) (i : Instr),
    i.wellFormed op (lookupHandler t op) = true → decodeDWord t (encodeAt op i) = i

/-- The same from bytes in memory order under REF+CNT, the bytes after the instruction left over (20_memory.md R61). -/
def Obligations.DecodeOfEncodedBytesIsTheInstruction : Prop :=
  ∀ (i : Instr) (rest : List Byte),
    i.wellFormedRef = true → decodeBytes (buildTable .refCnt) (dwordBytes (encode i) ++ rest) = .ok (i, rest)

/-- Bits a format does not name have no influence: two words with the same opcode that agree on the bits the format of
the opcode's handler names decode to the same instruction; so does the word re-encoded from what was decoded of it,
whose ignored bits are 0 (30_encoding.md R82, R87). -/
def Obligations.IgnoredBitsHaveNoInfluence : Prop :=
  ∀ (t : Table) (w : DWord),
    (∀ v : DWord, opcodeOf w = opcodeOf v →
      w &&& (lookupHandler t (opcodeOf w)).namedBits = v &&& (lookupHandler t (opcodeOf w)).namedBits →
      decodeDWord t w = decodeDWord t v) ∧
    decodeDWord t (encodeAt (opcodeOf w) (decodeDWord t w)) = decodeDWord t w

/-- A few words of the spec's own examples, read as the spec reads them (30_encoding.md R91, 95_test_vectors.md). -/
def Obligations.ExampleWordsDecodeAsTheSpecReadsThem : Prop :=
  decodeTableWord 64 0xBC00040600200000 = some (.movewordSegment 0x0004 0x00200000) ∧
  decodeTableWord 64 0x0703000000002100 = some (.dlcnt 3 0 0x00002100) ∧
  decodeTableWord 64 0x0601000000003100 = some (.dl 1 0 0x00003100) ∧
  decodeTableWord 64 0xFF10013F01000000 = some (.setcimg 0 2 319 0x01000000) ∧
  decodeTableWord 64 0xED000000005003C0 = some (.setscissor 0 0 0 1280 960) ∧
  decodeTableWord 64 0xF607409C00028050 = some (.fillrect 116 156 40 80) ∧
  decodeTableWord 64 0xF510000007080200 = some (.settile 0xF5100000 0x07080200) ∧
  decodeTableWord 64 0x0394001002000060 = some (.movememLight7 16 0x02000060) ∧
  decodeTableWord 64 0x0396001002000050 = some (.movememX 0x03960010 0x02000050) ∧
  decodeTableWord 64 0x0200000000000000 = some (.unknown 0x02)

/-- REF leaves exactly these slots unbound, and REF+CNT the same without 0x07, which is DLCNT there (30_encoding.md R86). -/
def Obligations.UnboundSlotsOfTheReferenceProfiles : Prop :=
  (∀ op : BitVec 8, lookupHandler (buildTable (.stock .ref)) op = .unknown ↔
    op = 0x02 ∨ op = 0x05 ∨ op = 0x07 ∨ (0x08 ≤ op ∧ op ≤ 0xB2) ∨ (0xC1 ≤ op ∧ op ≤ 0xC7) ∨
      (0xD0 ≤ op ∧ op ≤ 0xE3) ∨ op = 0xF1) ∧
  lookupHandler (buildTable .refCnt) 0x07 = .dlcnt ∧
  ∀ op : BitVec 8, op ≠ 0x07 → lookupHandler (buildTable .refCnt) op = lookupHandler (buildTable (.stock .ref)) op

/-- A custom profile equals its base at every opcode its patch list does not bind, and its patch where the list
binds the opcode, once (40_dispatch_loop.md R113). -/
def Obligations.CustomProfileIsItsBaseOutsideThePatches : Prop :=
  ∀ (c : CustomProfile) (op : BitVec 8),
    ((∀ e ∈ c.patches, e.1 ≠ op) →
      lookupHandler (patchedTable c) op = lookupHandler (stockTable c.base) op) ∧
    (∀ h, (c.patches.map Prod.fst).Nodup → (op, h) ∈ c.patches → lookupHandler (patchedTable c) op = h)

/-! ## Memory and translation (00_scope.md R6, 20_memory.md) -/

/-- `MemRead(a, n)`: below MEM_SIZE the number whose byte `k` from the top is the byte at `a + k`; otherwise the fault
F_RANGE with `a`; the signed reads are its two's complement (00_scope.md R6, R7). -/
def Obligations.MemReadIsBigEndianOrRangeFault : Prop :=
  ∀ (s : State) (a n : Nat),
    (a + n ≤ s.cfg.memSize → ∃ v, s.memRead a n = .ok v ∧ v < 256 ^ n ∧
      ∀ k < n, v / 256 ^ (n - 1 - k) % 256 = s.byteAt (a + k)) ∧
    (s.cfg.memSize < a + n → s.memRead a n = .error { code := .range, info := a }) ∧
    (∀ v, s.memRead a 1 = .ok v → s.memRead8s a = .ok (sext 8 v)) ∧
    (∀ v, s.memRead a 2 = .ok v → s.memRead16s a = .ok (sext 16 v))

/-- `resolve` is the sum of the two 24-bit values, not reduced (20_memory.md R65). -/
def Obligations.ResolveIsTheUnreducedSum : Prop :=
  ∀ (s : State) (sa : Word), s.resolve sa = s.resolved sa ∧ s.resolve sa ≤ 0x1FFFFFE

/-- Writing one segment changes no address that names another, and the next resolve sees the new base (20_memory.md R66). -/
def Obligations.SegmentSlotsAreIndependent : Prop :=
  ∀ (s : State) (n : BitVec 4) (v sa : Word),
    (sa.extractLsb' 24 4 ≠ n → (s.setSegment n v).resolve sa = s.resolve sa) ∧
    (sa.extractLsb' 24 4 = n → (s.setSegment n v).resolve sa = v.toNat % 2 ^ 24 + sa.toNat % 2 ^ 24)

/-- Every step keeps guest memory in its canonical form. The form is the model's own (log 4). -/
def Obligations.StepKeepsMemoryCanonical : Prop :=
  ∀ s t : State, Memory.wf s.mem = true → step s = .next t → Memory.wf t.mem = true

/-- A host write between Processes is read back, and every other byte is as it was (40_dispatch_loop.md R130). The
form of the memory premise is the model's own (log 4). -/
def Obligations.HostWriteBetweenProcessesIsReadBack : Prop :=
  ∀ (s : State) (a : Nat) (bytes : List Byte) (later : List HostMove),
    (s.run = .idle ∨ s.run = .done) → s.host = .writeMemory a bytes :: later →
    a + bytes.length ≤ s.cfg.memSize → Memory.wf s.mem = true →
    ∃ m, step s = .next { s with host := later, mem := m } ∧
      (∀ k < bytes.length, Memory.read m (a + k) = bytes.getD k 0) ∧
      ∀ b, b < a ∨ a + bytes.length ≤ b → Memory.read m b = Memory.read s.mem b

/-! ## The dispatch step (40_dispatch_loop.md) -/

/-- A step runs the decoded instruction: on the state after the fetch, and then the exhausted-frame pop unless the
handler faulted (40_dispatch_loop.md R120, R122, R123, R124; 00_scope.md R9, R10; 60_exceptions.md R301). Two things here
are the model's: that nothing is popped after a handler that faulted, deduced from R10 and R301 where R124 says after
every handler (log 9), and that a counter already 0 at the fetch, which 10_state.md R36 rules out, stays 0 (log 10). -/
def Obligations.StepRunsTheDecodedInstruction : Prop :=
  ∀ (s : State) (top : Frame) (below : List Frame) (i : Instr),
    s.Fetches top below → s.instrAt top.addr = some i →
    step s = settle (exec i (s.seenByHandler top below)) ∧
    (∀ u, exec i (s.seenByHandler top below) = .next u →
      (u.run = .running → step s = .next { u with stack := dropExhausted u.stack }) ∧
      (u.run ≠ .running → step s = .next u))

/-- A fetch faults before it changes the frame, its counter or ICOUNT: F_ALIGN first, then F_RANGE (20_memory.md R67,
60_exceptions.md R302). -/
def Obligations.FetchFaultsLeaveTheFrame : Prop :=
  ∀ (s : State) (top : Frame) (below : List Frame),
    s.run = .running → s.stack = top :: below → s.ceilingReached = false →
    (top.addr % 8 ≠ 0 → step s = .next { s with run := .faulted { code := .align, info := top.addr } }) ∧
    (top.addr % 8 = 0 → s.cfg.memSize < top.addr + 8 →
      step s = .next { s with run := .faulted { code := .range, info := top.addr } })

/-- A drained stack, or the debug ceiling whatever the depth, finishes the Process without a fetch
(40_dispatch_loop.md R121, R126, R128). -/
def Obligations.DrainedOrCutOffProcessFinishes : Prop :=
  ∀ s : State, s.run = .running →
    (s.stack = [] ∨ ∃ m, s.input.maxDispatch = some m ∧ m ≤ s.icount) →
    step s = .next { s with
      run := .done
      trace := s.trace ++ [{ event := .sceneEnd, snap := s.regs }, { event := .irqDone, snap := s.regs }] }

/-- After a handler exactly the frames on top whose counter is `some 0` are popped (40_dispatch_loop.md R124). -/
def Obligations.ExhaustedFramesArePopped : Prop :=
  ∀ u : State, u.run = .running →
    ∃ popped kept, u.stack = popped ++ kept ∧ (∀ f ∈ popped, f.cnt = some 0) ∧
      (∀ f ∈ kept.head?, f.cnt ≠ some 0) ∧ settle (.next u) = .next { u with stack := kept }

/-- A counted frame loses one per instruction dispatched from it, and is popped right after its last: for every
instruction whose handler leaves the stack as the fetch left it (40_dispatch_loop.md R122, R124). -/
def Obligations.CountedFrameLosesOnePerDispatch : Prop :=
  ∀ (s u : State) (top : Frame) (below : List Frame) (i : Instr) (c : Nat),
    s.Fetches top below → s.instrAt top.addr = some i → top.cnt = some (c + 1) →
    exec i (s.seenByHandler top below) = .next u → u.run = .running →
    u.stack = (s.seenByHandler top below).stack →
    ∃ t, step s = .next t ∧
      (0 < c → t.stack = { addr := top.addr + 8, cnt := some c } :: below) ∧
      (c = 0 → ∃ popped, below = popped ++ t.stack ∧ (∀ f ∈ popped, f.cnt = some 0) ∧
        ∀ f ∈ t.stack.head?, f.cnt ≠ some 0)

/-- A bounded call of straight-line instructions runs exactly N of them and returns: a DLCNT at the top frame's address,
with `N` words at its target that neither steer the stack nor read guest memory, is back at the caller after `1 + N`
steps, having dispatched `1 + N` instructions; if they are accepted no-ops, nothing else has changed (41_control.md
R152). Calls, ENDDL, UNKNOWN, textured rectangles and record loads in the body are left out. -/
def Obligations.BoundedCallRunsExactlyN : Prop :=
  ∀ (s : State) (top : Frame) (below : List Frame) (n : BitVec 8) (len : BitVec 16) (sa : Word),
    s.Fetches top below → s.input.maxDispatch = none → top.cnt = none → s.depth < stackMax →
    s.instrAt top.addr = some (.dlcnt n len sa) →
    s.resolve sa % 8 = 0 → s.resolve sa + 8 * n.toNat ≤ s.cfg.memSize →
    ((∀ k < n.toNat, ∃ i, s.instrAt (s.resolve sa + 8 * k) = some i ∧ i.isStraightLine = true) →
      ∃ t, core.run (1 + n.toNat) s = .next t ∧ t.run = .running ∧
        t.stack = { top with addr := top.addr + 8 } :: below ∧ t.icount = s.icount + 1 + n.toNat) ∧
    ((∀ k < n.toNat, ∃ i, s.instrAt (s.resolve sa + 8 * k) = some i ∧ i.isNoOp = true) →
      core.run (1 + n.toNat) s = .next { s with
        stack := { top with addr := top.addr + 8 } :: below
        icount := s.icount + 1 + n.toNat })

/-- A list that branches to itself with no ceiling runs for ever: after any number of steps the machine is Running at
the same place, with one more dispatch a step (70_reset_and_hazards.md R347). -/
def Obligations.SelfBranchRunsForEver : Prop :=
  ∀ (s : State) (top : Frame) (below : List Frame) (p : BitVec 8) (len : BitVec 16) (sa : Word),
    s.Fetches top below → s.input.maxDispatch = none → top.cnt = none →
    s.instrAt top.addr = some (.dl p len sa) → p ≠ 0 → s.resolve sa = top.addr →
    ∀ n, core.run n s = .next { s with icount := s.icount + n }

/-- The same list with a ceiling of `n` more dispatches is cut off after them and finishes: `n` branches and the
finishing step (40_dispatch_loop.md R126). -/
def Obligations.CeilingCutsOffASelfBranch : Prop :=
  ∀ (s : State) (top : Frame) (below : List Frame) (p : BitVec 8) (len : BitVec 16) (sa : Word) (n : Nat),
    s.run = .running → s.stack = top :: below → top.addr % 8 = 0 → top.addr + 8 ≤ s.cfg.memSize →
    s.input.maxDispatch = some (s.icount + n) → top.cnt = none →
    s.instrAt top.addr = some (.dl p len sa) → p ≠ 0 → s.resolve sa = top.addr →
    core.run (n + 1) s = .next { s with
      run := .done
      icount := s.icount + n
      trace := s.trace ++ [{ event := .sceneEnd, snap := s.regs }, { event := .irqDone, snap := s.regs }] }

/-! ## Process, host and reset -/

/-- The values power-on leaves, those the spec gives (10_state.md R52, 70_reset_and_hazards.md R330); the scissor is
the parameter SCISSOR_RESET. Nothing executes until the host starts a Process; that a step with no move of the host
pending answers the same state is how the model says so (log 3). -/
def Obligations.PowerOnValues : Prop :=
  let s := State.reset
  s.run = .idle ∧ s.depth = 0 ∧ (∀ n, s.segment n = 0) ∧ s.pcache.valid = false ∧ s.errOvf = false ∧
  s.icount = 0 ∧ s.trace = [] ∧ s.regs.scissor = s.cfg.scissorReset ∧
  (∀ d ∈ [s.regs.timg, s.regs.cimg, s.regs.zimg], d = { fmt := 0, siz := 0, width := 0, addr := 0 }) ∧
  s.regs.fill = 0 ∧ s.regs.omh = 0 ∧ s.regs.oml = 0 ∧ s.regs.geom = 0 ∧
  s.regs.combine = { mux0 := 0, mux1 := 0 } ∧ s.regs.prim = { color := 0, m := 0, l := 0 } ∧
  s.regs.env = 0 ∧ s.regs.fog = 0 ∧ s.regs.blend = 0 ∧
  ∀ n, core.run n s = .next s

/-- The start of a Process between Processes: the profile cache kept when valid for the same code base and otherwise
rebuilt for it, the per-frame state reset, the two frame-start events; with the renderer unavailable, the per-frame
state reset, the stack emptied and the completion signal alone (40_dispatch_loop.md R112, R115, R116, R117; 10_state.md
R48; 70_reset_and_hazards.md R331). That the start is a pending move of the host, which one step takes, is the model's
choice (log 3). -/
def Obligations.ProcessStart : Prop :=
  ∀ (s : State) (input : FrameInput) (later : List HostMove),
    (s.run = .idle ∨ s.run = .done) → s.host = .startProcess input :: later →
    let regs := clearedRegs s.cfg.scissorReset
    (input.rendererAvailable = true → ∃ cache : ProfileCache,
      (s.pcache.valid = true → s.pcache.codeBase = input.task.codeBase → cache = s.pcache) ∧
      (s.pcache.valid = false ∨ s.pcache.codeBase ≠ input.task.codeBase →
        cache.valid = true ∧ cache.codeBase = input.task.codeBase ∧ cache.pid = s.detect input.task ∧
        cache.table = buildTable cache.pid ∧ cache.vstride = vertexStride cache.pid) ∧
      step s = .next { s with
        input := input
        host := later
        pcache := cache
        stack := [{ addr := input.task.dlStart.toNat % 2 ^ 24, cnt := none }]
        run := .running
        icount := 0
        regs := regs
        trace := [{ event := .mtxReset input.task.stackHint, snap := regs }, { event := .sceneBegin, snap := regs }] }) ∧
    (input.rendererAvailable = false →
      step s = .next { s with
        input := input
        host := later
        stack := []
        run := .done
        icount := 0
        regs := regs
        trace := [{ event := .irqDone, snap := regs }] })

/-- Power-on, between Processes or after a fault, leaves the power-on values, guest memory and the parameters apart,
which are not the DLI's (70_reset_and_hazards.md R330, 60_exceptions.md R304). What the machine holds of an invalid
PCACHE and of the inputs is the model's choice (log 6, log 7). -/
def Obligations.PowerOnIsTheWayOutOfAFault : Prop :=
  ∀ (s : State) (later : List HostMove), s.run ≠ .running → s.host = .powerOn :: later →
    step s = .next { State.reset with
      cfg := s.cfg
      regs := clearedRegs s.cfg.scissorReset
      mem := s.mem
      host := later }

/-- Nothing but power-on leaves Faulted: with any other move pending, or none, the machine halts with the fault's code
and info (60_exceptions.md R304). -/
def Obligations.FaultedIsTerminal : Prop :=
  ∀ (s : State) (trap : Trap), s.run = .faulted trap → (∀ move ∈ s.host.head?, move ≠ .powerOn) →
    step s = .fault (.halted trap)

/-- Between Processes with no move of the host pending, nothing changes (60_exceptions.md R312). That the machine has a
step then, and that it answers the same state, is the model's choice (log 3). -/
def Obligations.NothingHappensUntilTheHostMoves : Prop :=
  ∀ s : State, (s.run = .idle ∨ s.run = .done) → s.host = [] → step s = .next s

/-! ## Invariants and whole-machine rules -/

/-- Every step keeps the stack invariant: at most 32 frames, and a Running machine's top frame has budget left
(10_state.md R36). -/
def Obligations.StepKeepsTheStackInvariant : Prop :=
  ∀ s t : State, s.StackInv → step s = .next t → t.StackInv

/-- Every step keeps the ranges of the registers: descriptor addresses below 2^25, widths at most 4096, a scissor that
is the reset one or in order and within 0..1023 (10_state.md R40, R42). -/
def Obligations.StepKeepsTheRegisterRanges : Prop :=
  ∀ s t : State, s.regs.InRange s.cfg.scissorReset → step s = .next t → t.regs.InRange t.cfg.scissorReset

/-- Every step keeps the completion signal's rule: once and last in a trace that is Done, in no other (60_exceptions.md R305). -/
def Obligations.StepKeepsTheCompletionSignalRule : Prop :=
  ∀ s t : State, s.SignalInv → step s = .next t → t.SignalInv

/-- The machine after power-on meets the invariants. -/
def Obligations.PowerOnMeetsTheInvariants : Prop :=
  State.reset.StackInv ∧ State.reset.regs.InRange State.reset.cfg.scissorReset ∧ State.reset.SignalInv ∧
  Memory.wf State.reset.mem = true

/-- What no step of a Process writes: the parameters, the inputs, the profile cache, guest memory and the host's moves
(20_memory.md R70, 40_dispatch_loop.md R111, R125); the parameters are written by no step at all. -/
def Obligations.AProcessNeverWritesItsInputsOrMemory : Prop :=
  ∀ s t : State, step s = .next t →
    t.cfg = s.cfg ∧
    (s.run = .running → t.input = s.input ∧ t.pcache = s.pcache ∧ t.mem = s.mem ∧ t.host = s.host)

/-- The handler contract's frame (40_dispatch_loop.md R125): whatever instruction runs, ICOUNT, PCACHE, every byte of
guest memory, the inputs and the parameters are unchanged, and RUN too unless the handler reads memory. -/
def Obligations.HandlerFrame : Prop :=
  ∀ (i : Instr) (s t : State), exec i s = .next t →
    t.icount = s.icount ∧ t.pcache = s.pcache ∧ t.input = s.input ∧ t.cfg = s.cfg ∧ t.host = s.host ∧
    (∀ a, Memory.read t.mem a = Memory.read s.mem a) ∧
    (i.readsMemory = false → t.run = s.run)

/-- Only MOVEWORD_SEGMENT writes SEG, and of it only the register its offset names (10_state.md R30, 20_memory.md R66). -/
def Obligations.OnlySegmentSetWritesSegments : Prop :=
  ∀ (i : Instr) (s t : State) (n : BitVec 4), exec i s = .next t →
    (∀ ofs data, i = .movewordSegment ofs data → n.toNat ≠ ofs.toNat / 4 % 16) → t.segment n = s.segment n

/-- ERR_OVF is sticky: only power-on clears it, and only a rejected push sets it, the one of a call fetched at depth 32
(10_state.md R39). -/
def Obligations.OverflowBitIsSticky : Prop :=
  ∀ s t : State, step s = .next t →
    (s.errOvf = true → t.errOvf = true ∨ (s.host.head? = some .powerOn ∧ s.run ≠ .running ∧ t.errOvf = false)) ∧
    (s.errOvf = false → t.errOvf = true →
      ∃ top below i, s.Fetches top below ∧ s.instrAt top.addr = some i ∧ s.depth = 32 ∧ i.isCall = true)

/-- While a Process runs the trace only grows, by at most two records a step, and no earlier record or snapshot
changes (00_scope.md R11). -/
def Obligations.TraceOnlyGrows : Prop :=
  ∀ s t : State, s.run = .running → step s = .next t →
    ∃ new, t.trace = s.trace ++ new ∧ new.length ≤ 2

/-- A handler that reads no memory does the same whatever guest memory holds (20_memory.md R60). -/
def Obligations.OnlyRecordAndExtraWordHandlersReadMemory : Prop :=
  ∀ (i : Instr) (s : State) (m : Memory), i.readsMemory = false →
    exec i { s with mem := m } = onNext (fun t => { t with mem := m }) (exec i s)

/-- TIMG, OML, GEOM, COMBINE, the constant colors, OMH outside its cycle type, ERR_OVF and the vertex stride never
steer the machine: from two states that differ only in them, a step leads to states that differ only in them, with the
same events (10_state.md R22). -/
def Obligations.OpaqueRegistersNeverSteer : Prop :=
  ∀ s u : State, s.withoutOpaque = u.withoutOpaque →
    onNext State.withoutOpaque (step s) = onNext State.withoutOpaque (step u)

/-! ## Control instructions (41_control.md) -/

/-- DL (R150): a call pushes the resolved target with no counter, at depth 32 it only sets ERR_OVF; a branch moves the
top frame and keeps its counter. -/
def Obligations.DlCallsOrBranches : Prop :=
  ReadsAs 0x06 (fun w0 w1 => .dl (w0.extractLsb' 16 8) (w0.extractLsb' 0 16) w1) ∧
  ∀ (p : BitVec 8) (len : BitVec 16) (sa : Word) (s : State),
    (p = 0 → s.depth ≠ 32 →
      exec (.dl p len sa) s = .next { s with stack := { addr := s.resolved sa, cnt := none } :: s.stack }) ∧
    (p = 0 → s.depth = 32 → exec (.dl p len sa) s = .next { s with errOvf := true }) ∧
    (p ≠ 0 → ∀ top below, s.stack = top :: below →
      exec (.dl p len sa) s = .next { s with stack := { addr := s.resolved sa, cnt := top.cnt } :: below })

/-- DLCNT (R152): the new frame's budget is the count field; at depth 32 the call only sets ERR_OVF. -/
def Obligations.DlcntCallsWithABudget : Prop :=
  ReadsAs 0x07 (fun w0 w1 => .dlcnt (w0.extractLsb' 16 8) (w0.extractLsb' 0 16) w1) ∧
  ∀ (p : BitVec 8) (len : BitVec 16) (sa : Word) (s : State),
    (s.depth ≠ 32 →
      exec (.dlcnt p len sa) s =
        .next { s with stack := { addr := s.resolved sa, cnt := some p.toNat } :: s.stack }) ∧
    (s.depth = 32 → exec (.dlcnt p len sa) s = .next { s with errOvf := true })

/-- ENDDL and UNKNOWN (R151, R153): the top frame is popped, its budget with it, and nothing else changes. Every word
in an unbound slot of any profile is UNKNOWN. -/
def Obligations.EnddlAndUnknownPop : Prop :=
  ReadsAs 0xB8 (fun _ _ => .enddl) ∧
  (∀ (t : Table) (w : DWord), lookupHandler t (opcodeOf w) = .unknown → decodeDWord t w = .unknown (opcodeOf w)) ∧
  ∀ (s : State) (top : Frame) (below : List Frame) (op : BitVec 8), s.stack = top :: below →
    exec .enddl s = .next { s with stack := below } ∧ exec (.unknown op) s = .next { s with stack := below }

/-! ## Addressing and image set (42_addressing_image.md) -/

/-- SETTIMG, SETCIMG and SETZIMG (R170 to R172): the descriptor holds the tags unchanged, the width field plus one and
the resolved address; nothing else changes. -/
def Obligations.ImageSetStoresTheDescriptor : Prop :=
  ReadsAs 0xFD (fun w0 w1 => .settimg (w0.extractLsb' 21 3) (w0.extractLsb' 19 2) (w0.extractLsb' 0 12) w1) ∧
  ReadsAs 0xFF (fun w0 w1 => .setcimg (w0.extractLsb' 21 3) (w0.extractLsb' 19 2) (w0.extractLsb' 0 12) w1) ∧
  ReadsAs 0xFE (fun w0 w1 => .setzimg (w0.extractLsb' 21 3) (w0.extractLsb' 19 2) (w0.extractLsb' 0 12) w1) ∧
  ∀ (fmt : BitVec 3) (siz : BitVec 2) (wm1 : BitVec 12) (sa : Word) (s : State),
    ∃ d : ImageDesc, d.fmt = fmt ∧ d.siz = siz ∧ d.width.toNat = wm1.toNat + 1 ∧ d.addr = s.resolved sa ∧
      exec (.settimg fmt siz wm1 sa) s = .next { s with regs := { s.regs with timg := d } } ∧
      exec (.setcimg fmt siz wm1 sa) s = .next { s with regs := { s.regs with cimg := d } } ∧
      exec (.setzimg fmt siz wm1 sa) s = .next { s with regs := { s.regs with zimg := d } }

/-- MOVEWORD_SEGMENT (R173): all 32 bits go to the segment numbered `(ofs >> 2) & 0xF`, and nothing else changes. -/
def Obligations.SegmentSetStoresTheWholeWord : Prop :=
  (∀ w0 w1 : Word, w0.extractLsb' 24 8 = 0xBC → w0.extractLsb' 0 8 = 0x06 →
    decodeDWord (buildTable .refCnt) (joinHalves w0 w1) = .movewordSegment (w0.extractLsb' 8 16) w1) ∧
  ∀ (ofs : BitVec 16) (data : Word) (s : State),
    ∃ seg, exec (.movewordSegment ofs data) s = .next { s with seg := seg } ∧
      ∀ n : BitVec 4, { s with seg := seg }.segment n =
        if n.toNat = ofs.toNat / 4 % 16 then data else s.segment n

/-! ## Tile instructions (43_tile.md) -/

/-- The five tile instructions (R190 to R194): one event with both halves unchanged, and nothing else. -/
def Obligations.TileInstructionsForwardTheWord : Prop :=
  ReadsAs 0xF5 (fun w0 w1 => .settile w0 w1) ∧ ReadsAs 0xF2 (fun w0 w1 => .settilesize w0 w1) ∧
  ReadsAs 0xF4 (fun w0 w1 => .loadtile w0 w1) ∧ ReadsAs 0xF3 (fun w0 w1 => .loadblock w0 w1) ∧
  ReadsAs 0xF0 (fun w0 w1 => .loadtlut w0 w1) ∧
  ∀ (w0 w1 : Word) (s : State),
    exec (.settile w0 w1) s = .next (s.announced (.setTile w0 w1)) ∧
    exec (.settilesize w0 w1) s = .next (s.announced (.setTileSize w0 w1)) ∧
    exec (.loadtile w0 w1) s = .next (s.announced (.loadTile w0 w1)) ∧
    exec (.loadblock w0 w1) s = .next (s.announced (.loadBlock w0 w1)) ∧
    exec (.loadtlut w0 w1) s = .next (s.announced (.loadTlut w0 w1))

/-! ## Raster state (44_raster_state.md) -/

/-- SETSCISSOR (R200): whole pixels, fraction dropped; stored and announced when in order, otherwise unchanged; then
the policy's viewport event, the boundary 0 having no stated meaning (log 8). -/
def Obligations.ScissorSetIsCheckedAndAnnounced : Prop :=
  ReadsAs 0xED (fun w0 w1 => .setscissor (w0.extractLsb' 12 12) (w0.extractLsb' 0 12)
    (w1.extractLsb' 24 2) (w1.extractLsb' 12 12) (w1.extractLsb' 0 12)) ∧
  ∀ (ulx uly : BitVec 12) (mode : BitVec 2) (lrx lry : BitVec 12) (s : State),
    let r : Scissor :=
      { left := ulx.toNat / 4, top := uly.toNat / 4, right := lrx.toNat / 4, bottom := lry.toNat / 4 }
    ∃ (u : State) (viewport : Bool),
      (r.left < r.right ∧ r.top < r.bottom →
        u = { s with regs := { s.regs with scissor := r } }.announced (.scissor r.left r.top r.right r.bottom)) ∧
      (¬ (r.left < r.right ∧ r.top < r.bottom) → u = s) ∧
      (s.input.policy.vpHackAlign = none → viewport = false) ∧
      (∀ a, 0 < a → s.input.policy.vpHackAlign = some a → (viewport = true ↔ s.regs.cimg.addr % a ≠ 0)) ∧
      exec (.setscissor ulx uly mode lrx lry) s =
        .next (if viewport then u.announced .viewportFromRegion else u)

/-- SETFILLCOLOR (R201). -/
def Obligations.FillColorIsStored : Prop :=
  ReadsAs 0xF7 (fun _ w1 => .setfillcolor w1) ∧
  ∀ (data : Word) (s : State), exec (.setfillcolor data) s = .next { s with regs := { s.regs with fill := data } }

/-- SETOTHERMODE_H and SETOTHERMODE_L (R202, R203): bit `k` comes from `data` when `sft <= k < sft + len` and is kept
otherwise; nothing else changes. -/
def Obligations.OtherModeIsWrittenUnderItsMask : Prop :=
  ReadsAs 0xBA (fun w0 w1 => .setothermodeH (w0.extractLsb' 8 8) (w0.extractLsb' 0 8) w1) ∧
  ReadsAs 0xB9 (fun w0 w1 => .setothermodeL (w0.extractLsb' 8 8) (w0.extractLsb' 0 8) w1) ∧
  ∀ (sft len : BitVec 8) (data : Word) (s : State),
    ∃ h l : Word,
      (∀ k < 32, h.getLsbD k =
        if sft.toNat ≤ k ∧ k < sft.toNat + len.toNat then data.getLsbD k else s.regs.omh.getLsbD k) ∧
      (∀ k < 32, l.getLsbD k =
        if sft.toNat ≤ k ∧ k < sft.toNat + len.toNat then data.getLsbD k else s.regs.oml.getLsbD k) ∧
      exec (.setothermodeH sft len data) s = .next { s with regs := { s.regs with omh := h } } ∧
      exec (.setothermodeL sft len data) s = .next { s with regs := { s.regs with oml := l } }

/-- RDPSETOTHERMODE (R204): OMH becomes the 24-bit field, so its top byte 0 and CYCLE the field's bits 21..20; OML
becomes `w1`. -/
def Obligations.RdpOtherModeReplacesBoth : Prop :=
  ReadsAs 0xEF (fun w0 w1 => .rdpsetothermode (w0.extractLsb' 0 24) w1) ∧
  ∀ (omh : BitVec 24) (oml : Word) (s : State),
    ∃ h : Word, h.toNat = omh.toNat ∧
      ({ s.regs with omh := h, oml := oml } : Regs).cycle = omh.toNat / 2 ^ 20 % 4 ∧
      exec (.rdpsetothermode omh oml) s = .next { s with regs := { s.regs with omh := h, oml := oml } }

/-- SETGEOMETRYMODE ors its data into GEOM, CLEARGEOMETRYMODE ands its complement (R205, R206; 10_state.md R45), bit by bit. -/
def Obligations.GeometryModeBitsAreSetAndCleared : Prop :=
  ReadsAs 0xB7 (fun _ w1 => .setgeometrymode w1) ∧ ReadsAs 0xB6 (fun _ w1 => .cleargeometrymode w1) ∧
  ∀ (data : Word) (s : State),
    ∃ on off : Word,
      (∀ k < 32, on.getLsbD k = (s.regs.geom.getLsbD k || data.getLsbD k)) ∧
      (∀ k < 32, off.getLsbD k = (s.regs.geom.getLsbD k && !data.getLsbD k)) ∧
      exec (.setgeometrymode data) s = .next { s with regs := { s.regs with geom := on } } ∧
      exec (.cleargeometrymode data) s = .next { s with regs := { s.regs with geom := off } }

/-- SETCOMBINE (R207) and SETPRIMCOLOR (R208): stored, then announced with the new value in the snapshot. -/
def Obligations.CombineAndPrimColorAreStoredAndAnnounced : Prop :=
  ReadsAs 0xFC (fun w0 w1 => .setcombine (w0.extractLsb' 0 24) w1) ∧
  ReadsAs 0xFA (fun w0 w1 => .setprimcolor (w0.extractLsb' 8 8) (w0.extractLsb' 0 8) w1) ∧
  ∀ (mux0 : BitVec 24) (mux1 : Word) (m l : BitVec 8) (color : Word) (s : State),
    exec (.setcombine mux0 mux1) s =
      .next ({ s with regs := { s.regs with combine := { mux0 := mux0, mux1 := mux1 } } }.announced
        (.combine mux0 mux1)) ∧
    exec (.setprimcolor m l color) s =
      .next ({ s with regs := { s.regs with prim := { color := color, m := m, l := l } } }.announced
        (.prim color m l))

/-- SETENVCOLOR, SETFOGCOLOR and SETBLENDCOLOR (R209 to R211): stored, then announced. -/
def Obligations.ConstantColorsAreStoredAndAnnounced : Prop :=
  ReadsAs 0xFB (fun _ w1 => .setenvcolor w1) ∧ ReadsAs 0xF8 (fun _ w1 => .setfogcolor w1) ∧
  ReadsAs 0xF9 (fun _ w1 => .setblendcolor w1) ∧
  ∀ (c : Word) (s : State),
    exec (.setenvcolor c) s = .next ({ s with regs := { s.regs with env := c } }.announced (.env c)) ∧
    exec (.setfogcolor c) s = .next ({ s with regs := { s.regs with fog := c } }.announced (.fog c)) ∧
    exec (.setblendcolor c) s = .next ({ s with regs := { s.regs with blend := c } }.announced (.blend c))

/-! ## Rectangles (45_rectangles.md) -/

/-- `rect` (R233): quarter pixels, and in COPY and FILL one whole pixel more on each far edge. -/
def Obligations.RectangleCoordinates : Prop :=
  ∀ (regs : Regs) (xh yh xl yl : BitVec 12),
    let r := rectOf regs.omh xh yh xl yl
    let extra : Rat := if regs.cycle = 2 ∨ regs.cycle = 3 then 1 else 0
    r.x0 = (xl.toNat : Rat) / 4 ∧ r.y0 = (yl.toNat : Rat) / 4 ∧
    r.x1 = (xh.toNat : Rat) / 4 + extra ∧ r.y1 = (yh.toNat : Rat) / 4 + extra

/-- `gate` (R232): drawn exactly if the color image's format is supported, the rectangle is not degenerate and it is not
fully outside the scissor; touching the scissor's edge is not outside. -/
def Obligations.GateOfARectangle : Prop :=
  ∀ (s : State) (r : Rect), s.gate r = true ↔
    (s.regs.cimg.fmt, s.regs.cimg.siz) ∈ s.cfg.ciSupported ∧ r.x0 < r.x1 ∧ r.y0 < r.y1 ∧
    (s.regs.scissor.left : Rat) ≤ r.x1 ∧ (s.regs.scissor.top : Rat) ≤ r.y1 ∧
    r.x0 ≤ (s.regs.scissor.right : Rat) ∧ r.y0 ≤ (s.regs.scissor.bottom : Rat)

/-- TEXRECT and TEXRECTFLIP with both extra words in memory (R230, R231): pc moves past them whether the rectangle is
drawn or not; if the gate lets it through, one event with S, T and the gradients from the words' second halves, DS a
quarter in COPY. -/
def Obligations.TexturedRectanglesAreDrawn : Prop :=
  ReadsAs 0xE4 (fun w0 w1 => .texrect (w0.extractLsb' 12 12) (w0.extractLsb' 0 12)
    (w1.extractLsb' 24 3) (w1.extractLsb' 12 12) (w1.extractLsb' 0 12)) ∧
  ReadsAs 0xE5 (fun w0 w1 => .texrectflip (w0.extractLsb' 12 12) (w0.extractLsb' 0 12)
    (w1.extractLsb' 24 3) (w1.extractLsb' 12 12) (w1.extractLsb' 0 12)) ∧
  ∀ (xh yh : BitVec 12) (tile : BitVec 3) (xl yl : BitVec 12) (s : State) (top : Frame) (below : List Frame),
    s.stack = top :: below → top.addr % 8 = 0 → top.addr + 16 ≤ s.cfg.memSize →
    let r := rectOf s.regs.omh xh yh xl yl
    let moved : State := { s with stack := { top with addr := top.addr + 16 } :: below }
    let ds : Rat := (sext 16 (s.halfAt (top.addr + 12)) : Rat) / 1024
    ∃ tex : TexCoords,
      tex.s = (sext 16 (s.halfAt (top.addr + 4)) : Rat) / 32 ∧
      tex.t = (sext 16 (s.halfAt (top.addr + 6)) : Rat) / 32 ∧
      tex.dsdx = (if s.regs.cycle = 2 then ds / 4 else ds) ∧
      tex.dtdy = (sext 16 (s.halfAt (top.addr + 14)) : Rat) / 1024 ∧
      exec (.texrect xh yh tile xl yl) s =
        .next (if s.gate r then moved.announced (.texRect tile r tex) else moved) ∧
      exec (.texrectflip xh yh tile xl yl) s =
        .next (if s.gate r then moved.announced (.texRectFlip tile r tex) else moved)

/-- Where TEXRECT and TEXRECTFLIP fault instead (00_scope.md R12, 60_exceptions.md R301): a misaligned or out-of-range
first extra word, or an out-of-range second one, whose fault leaves the advance past the first in place. -/
def Obligations.ExtraWordFaults : Prop :=
  ∀ (xh yh : BitVec 12) (tile : BitVec 3) (xl yl : BitVec 12) (s : State) (top : Frame) (below : List Frame)
    (i : Instr), s.stack = top :: below →
    (i = .texrect xh yh tile xl yl ∨ i = .texrectflip xh yh tile xl yl) →
    (top.addr % 8 ≠ 0 → exec i s = .next { s with run := .faulted { code := .align, info := top.addr } }) ∧
    (top.addr % 8 = 0 → s.cfg.memSize < top.addr + 8 →
      exec i s = .next { s with run := .faulted { code := .range, info := top.addr } }) ∧
    (top.addr % 8 = 0 → top.addr + 8 ≤ s.cfg.memSize → s.cfg.memSize < top.addr + 16 →
      exec i s = .next { s with
        stack := { top with addr := top.addr + 8 } :: below
        run := .faulted { code := .range, info := top.addr + 8 } })

/-- FILLRECT (R234, R235): format test, then the whole-framebuffer clear of FILL mode, then the degenerate and scissor
tests; at most one event and no register changes. -/
def Obligations.FilledRectanglesAreDrawnOrClear : Prop :=
  ReadsAs 0xF6 (fun w0 w1 => .fillrect (w0.extractLsb' 12 12) (w0.extractLsb' 0 12)
    (w1.extractLsb' 12 12) (w1.extractLsb' 0 12)) ∧
  ∀ (xh yh xl yl : BitVec 12) (s : State),
    let r := rectOf s.regs.omh xh yh xl yl
    exec (.fillrect xh yh xl yl) s = .next (
      if (s.regs.cimg.fmt, s.regs.cimg.siz) ∉ s.cfg.ciSupported then s
      else if s.regs.cycle = 3 ∧ s.input.policy.wholeScreenClear = true ∧
          r.x0 = 0 ∧ r.y0 = 0 ∧ r.x1 = (s.regs.cimg.width.toNat : Rat) ∧ r.y1 = (s.regs.scissor.bottom : Rat) then
        s.announced (if s.regs.cimg.addr = s.regs.zimg.addr then .clearDepth else .clearColor s.regs.fill)
      else if r.x1 ≤ r.x0 ∨ r.y1 ≤ r.y0 then s
      else if r.x1 < (s.regs.scissor.left : Rat) ∨ r.y1 < (s.regs.scissor.top : Rat) ∨
          (s.regs.scissor.right : Rat) < r.x0 ∨ (s.regs.scissor.bottom : Rat) < r.y0 then s
      else s.announced (.fillRect r s.regs.fill))

/-! ## Matrix, light and viewport loads (46_matrix_light.md) -/

/-- MTX (R260, R263): an aligned record in range gives one matrix event, element (i, j) the signed 16.16 number whose
high half is at `2(4i + j)` and whose low half is at `32 + 2(4i + j)`; no register changes. -/
def Obligations.MatrixLoadDecodesTheRecord : Prop :=
  ReadsAs 0x01 (fun w0 w1 => .mtx (w0.extractLsb' 16 8) (w0.extractLsb' 0 16) w1) ∧
  ∀ (p : BitVec 8) (len : BitVec 16) (sa : Word) (s : State),
    let a := s.resolved sa
    a % 8 = 0 → a + 64 ≤ s.cfg.memSize →
    ∃ m : Matrix4,
      (∀ (i j : Nat) (hi : i < 4) (hj : j < 4), m[i][j] =
        (sext 32 (s.halfAt (a + 2 * (4 * i + j)) * 65536 + s.halfAt (a + 32 + 2 * (4 * i + j))) : Rat) / 65536) ∧
      exec (.mtx p len sa) s = .next (s.announced (.matrix p m))

/-- The matrix decoder's round trip (R263): raw values split into the two planes decode to their 65536th parts. -/
def Obligations.MatrixDecodeRoundTrip : Prop :=
  ∀ (raw : Nat → Word) (record : List Byte),
    (∀ k < 16,
      recordByte record (2 * k) = (raw k).extractLsb' 24 8 ∧
      recordByte record (2 * k + 1) = (raw k).extractLsb' 16 8 ∧
      recordByte record (32 + 2 * k) = (raw k).extractLsb' 8 8 ∧
      recordByte record (32 + 2 * k + 1) = (raw k).extractLsb' 0 8) →
    ∀ (i j : Nat) (hi : i < 4) (hj : j < 4),
      (decodeMatrix record)[i][j] = ((raw (4 * i + j)).toInt : Rat) / 65536

/-- MOVEMEM of light n (R261, R264): the color is always announced, the direction after it unless all three bytes are
zero; no register changes. -/
def Obligations.LightLoadKeepsTheSentinel : Prop :=
  (∀ (n : Fin 8) (w0 w1 : Word), w0.extractLsb' 24 8 = 0x03 → (w0.extractLsb' 16 8).toNat = 0x86 + 2 * n.val →
    decodeDWord (buildTable .refCnt) (joinHalves w0 w1) = Instr.lightLoad n (w0.extractLsb' 0 16) w1) ∧
  ∀ (n : Fin 8) (len : BitVec 16) (sa : Word) (s : State),
    let a := s.resolved sa
    let b := fun k => Memory.read s.mem (a + k)
    let colored := s.announced (.lightColor n (b 0) (b 1) (b 2))
    a % 8 = 0 → a + 16 ≤ s.cfg.memSize →
    exec (Instr.lightLoad n len sa) s = .next (
      if b 8 = 0 ∧ b 9 = 0 ∧ b 10 = 0 then colored
      else colored.announced
        (.lightDir n (sext 8 (s.byteAt (a + 8))) (sext 8 (s.byteAt (a + 9))) (sext 8 (s.byteAt (a + 10)))))

/-- MOVEMEM of the viewport (R262): one event with the 128-bit record, big-endian. -/
def Obligations.ViewportLoadForwardsTheRecord : Prop :=
  (∀ w0 w1 : Word, w0.extractLsb' 24 8 = 0x03 → w0.extractLsb' 16 8 = 0x80 →
    decodeDWord (buildTable .refCnt) (joinHalves w0 w1) = .movememViewport (w0.extractLsb' 0 16) w1) ∧
  ∀ (len : BitVec 16) (sa : Word) (s : State),
    let a := s.resolved sa
    a % 8 = 0 → a + 16 ≤ s.cfg.memSize →
    ∃ v : BitVec 128, (∀ k < 16, v.toNat / 256 ^ (15 - k) % 256 = s.byteAt (a + k)) ∧
      exec (.movememViewport len sa) s = .next (s.announced (.viewport v))

/-- Where the record loads fault (20_memory.md R68, R69): a misaligned address before an out-of-range one
(60_exceptions.md R302), with no event and no other change (R301). -/
def Obligations.RecordFaults : Prop :=
  ∀ (p : BitVec 8) (n : Fin 8) (len : BitVec 16) (sa : Word) (s : State) (i : Instr) (size : Nat),
    ((i = .mtx p len sa ∧ size = 64) ∨ (i = Instr.lightLoad n len sa ∧ size = 16) ∨
      (i = .movememViewport len sa ∧ size = 16)) →
    let a := s.resolved sa
    (a % 8 ≠ 0 → exec i s = .next { s with run := .faulted { code := .align, info := a } }) ∧
    (a % 8 = 0 → s.cfg.memSize < a + size →
      exec i s = .next { s with run := .faulted { code := .range, info := a } })

/-! ## No-ops and pass-through (47_passthrough.md) -/

/-- SPNOOP, NOOP, RDPHALF_1, RDPHALF_2, LOADSYNC, PIPESYNC, TILESYNC, FULLSYNC, TRI_RDP, SETKEYR, SETKEYGB and
SETCONVERT change nothing (R280 to R288, 44_raster_state.md R212 to R214). -/
def Obligations.AcceptedNoOpsChangeNothing : Prop :=
  ReadsAs 0x00 (fun _ _ => .spnoop) ∧ ReadsAs 0xC0 (fun _ _ => .noop) ∧
  ReadsAs 0xB4 (fun _ _ => .rdphalf1) ∧ ReadsAs 0xB3 (fun _ _ => .rdphalf2) ∧
  ReadsAs 0xE6 (fun _ _ => .loadsync) ∧ ReadsAs 0xE7 (fun _ _ => .pipesync) ∧
  ReadsAs 0xE8 (fun _ _ => .tilesync) ∧ ReadsAs 0xE9 (fun _ _ => .fullsync) ∧
  (∀ variant : BitVec 3, ReadsAs (0x19#5 ++ variant) (fun _ _ => .triRdp variant)) ∧
  ReadsAs 0xEB (fun _ _ => .setkeyr) ∧ ReadsAs 0xEA (fun _ _ => .setkeygb) ∧ ReadsAs 0xEC (fun _ _ => .setconvert) ∧
  ∀ (i : Instr) (s : State), i.isNoOp = true → exec i s = .next s

/-- Every opaque instruction emits its one event with both halves and changes nothing else (R290 to R299): the nine of
the spec, and a custom profile's override handler under its own mnemonic, in whatever slot the profile binds it to. -/
def Obligations.OpaqueInstructionsForwardTheWord : Prop :=
  ReadsAs 0x04 (fun w0 w1 => .vtx w0 w1) ∧ ReadsAs 0xB5 (fun w0 w1 => .line3d w0 w1) ∧
  ReadsAs 0xBB (fun w0 w1 => .texture w0 w1) ∧ ReadsAs 0xBD (fun w0 w1 => .popmtx w0 w1) ∧
  ReadsAs 0xBE (fun w0 w1 => .culldl w0 w1) ∧ ReadsAs 0xBF (fun w0 w1 => .tri1 w0 w1) ∧
  ReadsAs 0xEE (fun w0 w1 => .setprimdepth w0 w1) ∧
  (∀ w0 w1 : Word, w0.extractLsb' 24 8 = 0xBC → w0.extractLsb' 0 8 ≠ 0x06 →
    decodeDWord (buildTable .refCnt) (joinHalves w0 w1) = .movewordX w0 w1) ∧
  (∀ w0 w1 : Word, w0.extractLsb' 24 8 = 0x03 → w0.extractLsb' 16 8 ∉ movememIndices →
    decodeDWord (buildTable .refCnt) (joinHalves w0 w1) = .movememX w0 w1) ∧
  (∀ (t : Table) (mnemonic : String) (w0 w1 : Word),
    lookupHandler t (w0.extractLsb' 24 8) = .extern (.custom mnemonic) →
    decodeDWord t (joinHalves w0 w1) = .externCustom mnemonic w0 w1) ∧
  ∀ (mnemonic : String) (w0 w1 : Word) (s : State),
    exec (.externCustom mnemonic w0 w1) s = .next (s.announced (.extern (.custom mnemonic) w0 w1)) ∧
    exec (.vtx w0 w1) s = .next (s.announced (.extern .vtx w0 w1)) ∧
    exec (.line3d w0 w1) s = .next (s.announced (.extern .line3d w0 w1)) ∧
    exec (.texture w0 w1) s = .next (s.announced (.extern .texture w0 w1)) ∧
    exec (.popmtx w0 w1) s = .next (s.announced (.extern .popmtx w0 w1)) ∧
    exec (.culldl w0 w1) s = .next (s.announced (.extern .culldl w0 w1)) ∧
    exec (.tri1 w0 w1) s = .next (s.announced (.extern .tri1 w0 w1)) ∧
    exec (.movewordX w0 w1) s = .next (s.announced (.extern .movewordX w0 w1)) ∧
    exec (.movememX w0 w1) s = .next (s.announced (.extern .movememX w0 w1)) ∧
    exec (.setprimdepth w0 w1) s = .next (s.announced (.extern .setprimdepth w0 w1))
end

