-- ==== Sys2Proof/Laws/Decode.lean ====
section
/-! SUPPORT. Slicing a joined word gives its parts back (30_encoding.md R80), words that agree on the bits a format
names have the same fields (R82), and the laws of table lookup (40_dispatch_loop.md R113). -/

namespace Sys2Proof

/-- A slice of the low part of a join. -/
theorem extract_low {n m : Nat} (x : BitVec n) (y : BitVec m) (start len : Nat) (h : start + len ≤ m) :
    (x ++ y).extractLsb' start len = y.extractLsb' start len := by
  ext i hi
  simp only [BitVec.getElem_extractLsb', BitVec.getLsbD_append]
  rw [if_pos (by omega)]

/-- A slice of the high part of a join. -/
theorem extract_high {n m : Nat} (x : BitVec n) (y : BitVec m) (start len : Nat) (h : m ≤ start) :
    (x ++ y).extractLsb' start len = x.extractLsb' (start - m) len := by
  ext i hi
  simp only [BitVec.getElem_extractLsb', BitVec.getLsbD_append]
  rw [if_neg (by omega), show start + i - m = start - m + i by omega]

/-- A slice of everything. -/
theorem extract_all {n : Nat} (x : BitVec n) : x.extractLsb' 0 n = x := by
  ext i hi
  simp

@[simp] theorem firstHalf_joinHalves (w0 w1 : Word) : firstHalf (joinHalves w0 w1) = w0 := by
  unfold firstHalf joinHalves
  rw [extract_high _ _ _ _ (by omega)]
  exact extract_all w0

@[simp] theorem secondHalf_joinHalves (w0 w1 : Word) : secondHalf (joinHalves w0 w1) = w1 := by
  unfold secondHalf joinHalves
  rw [extract_low _ _ _ _ (by omega)]
  exact extract_all w1

theorem opcodeOf_joinHalves (w0 w1 : Word) : opcodeOf (joinHalves w0 w1) = w0.extractLsb' 24 8 := by
  unfold opcodeOf joinHalves
  exact extract_high _ _ _ _ (by omega)

/-- An instruction is its two halves joined. -/
theorem joinHalves_halves (i : DWord) : joinHalves (firstHalf i) (secondHalf i) = i := by
  unfold joinHalves firstHalf secondHalf
  ext k hk
  simp only [BitVec.getElem_append, BitVec.getElem_extractLsb']
  split
  · simp [hk]
  · rename_i h
    rw [show 32 + (k - 32) = k by omega]
    simp [hk]

/-- The opcode is the top byte of the first half (30_encoding.md R80). -/
theorem opcodeOf_eq (i : DWord) : opcodeOf i = (firstHalf i).extractLsb' 24 8 := by
  conv_lhs => rw [← joinHalves_halves i]
  exact opcodeOf_joinHalves _ _

/-! ### Words that agree under a mask (30_encoding.md R82) -/

theorem getLsbD_of_agree {w v mask : DWord} (h : w &&& mask = v &&& mask) {k : Nat} (hk : mask.getLsbD k = true) :
    w.getLsbD k = v.getLsbD k := by
  simpa [hk] using congrArg (fun x => x.getLsbD k) h

/-- A field of the first half that the mask names. -/
theorem firstHalf_field_of_agree {w v mask : DWord} (h : w &&& mask = v &&& mask) (start len : Nat)
    (hm : ∀ k < len, mask.getLsbD (32 + (start + k)) = true) :
    (firstHalf w).extractLsb' start len = (firstHalf v).extractLsb' start len := by
  ext k hk
  simp only [firstHalf, BitVec.getElem_extractLsb', BitVec.getLsbD_extractLsb', getLsbD_of_agree h (hm k hk)]

/-- A field of the second half that the mask names. -/
theorem secondHalf_field_of_agree {w v mask : DWord} (h : w &&& mask = v &&& mask) (start len : Nat)
    (hm : ∀ k < len, mask.getLsbD (start + k) = true) :
    (secondHalf w).extractLsb' start len = (secondHalf v).extractLsb' start len := by
  ext k hk
  simp only [secondHalf, BitVec.getElem_extractLsb', BitVec.getLsbD_extractLsb', Nat.zero_add,
    getLsbD_of_agree h (hm k hk)]

/-- The whole second half, if the mask names it. -/
theorem secondHalf_of_agree {w v mask : DWord} (h : w &&& mask = v &&& mask)
    (hm : ∀ k < 32, mask.getLsbD (0 + k) = true) : secondHalf w = secondHalf v := by
  simpa only [extract_all] using secondHalf_field_of_agree h 0 32 hm

/-! ### Table lookup -/

/-- In joined tables the first one that binds an opcode decides. -/
theorem lookupHandler_append (t u : Table) (op : BitVec 8) :
    lookupHandler (t ++ u) op =
      if (t.any fun e => e.1 == op) then lookupHandler t op else lookupHandler u op := by
  induction t with
  | nil => rfl
  | cons e rest ih =>
    obtain ⟨slot, h⟩ := e
    rw [List.cons_append, List.any_cons]
    by_cases hs : slot = op
    · simp [lookupHandler, hs]
    · have hb : (slot == op) = false := by simpa using hs
      rw [lookupHandler, if_neg hs, ih, lookupHandler, if_neg hs, hb, Bool.false_or]

end Sys2Proof
end

