-- ==== Sys2Proof/Laws/State.lean ====
section
/-! SUPPORT. What each update of the state leaves in each field, true by unfolding, so that no proof unfolds a
record update again. -/

namespace Sys2Proof.Machine

/-! ### setRegs -/

@[simp] theorem State.setRegs_cfg (s : State) (r : Regs) : (s.setRegs r).cfg = s.cfg := rfl
@[simp] theorem State.setRegs_seg (s : State) (r : Regs) : (s.setRegs r).seg = s.seg := rfl
@[simp] theorem State.setRegs_pcache (s : State) (r : Regs) : (s.setRegs r).pcache = s.pcache := rfl
@[simp] theorem State.setRegs_errOvf (s : State) (r : Regs) : (s.setRegs r).errOvf = s.errOvf := rfl
@[simp] theorem State.setRegs_stack (s : State) (r : Regs) : (s.setRegs r).stack = s.stack := rfl
@[simp] theorem State.setRegs_run (s : State) (r : Regs) : (s.setRegs r).run = s.run := rfl
@[simp] theorem State.setRegs_icount (s : State) (r : Regs) : (s.setRegs r).icount = s.icount := rfl
@[simp] theorem State.setRegs_regs (s : State) (r : Regs) : (s.setRegs r).regs = r := rfl
@[simp] theorem State.setRegs_trace (s : State) (r : Regs) : (s.setRegs r).trace = s.trace := rfl
@[simp] theorem State.setRegs_mem (s : State) (r : Regs) : (s.setRegs r).mem = s.mem := rfl
@[simp] theorem State.setRegs_input (s : State) (r : Regs) : (s.setRegs r).input = s.input := rfl
@[simp] theorem State.setRegs_host (s : State) (r : Regs) : (s.setRegs r).host = s.host := rfl

/-! ### setStack -/

@[simp] theorem State.setStack_cfg (s : State) (fs : List Frame) : (s.setStack fs).cfg = s.cfg := rfl
@[simp] theorem State.setStack_seg (s : State) (fs : List Frame) : (s.setStack fs).seg = s.seg := rfl
@[simp] theorem State.setStack_pcache (s : State) (fs : List Frame) : (s.setStack fs).pcache = s.pcache := rfl
@[simp] theorem State.setStack_errOvf (s : State) (fs : List Frame) : (s.setStack fs).errOvf = s.errOvf := rfl
@[simp] theorem State.setStack_stack (s : State) (fs : List Frame) : (s.setStack fs).stack = fs := rfl
@[simp] theorem State.setStack_run (s : State) (fs : List Frame) : (s.setStack fs).run = s.run := rfl
@[simp] theorem State.setStack_icount (s : State) (fs : List Frame) : (s.setStack fs).icount = s.icount := rfl
@[simp] theorem State.setStack_regs (s : State) (fs : List Frame) : (s.setStack fs).regs = s.regs := rfl
@[simp] theorem State.setStack_trace (s : State) (fs : List Frame) : (s.setStack fs).trace = s.trace := rfl
@[simp] theorem State.setStack_mem (s : State) (fs : List Frame) : (s.setStack fs).mem = s.mem := rfl
@[simp] theorem State.setStack_input (s : State) (fs : List Frame) : (s.setStack fs).input = s.input := rfl
@[simp] theorem State.setStack_host (s : State) (fs : List Frame) : (s.setStack fs).host = s.host := rfl

/-! ### setSegment -/

@[simp] theorem State.setSegment_cfg (s : State) (n : BitVec 4) (v : Word) : (s.setSegment n v).cfg = s.cfg := rfl
@[simp] theorem State.setSegment_seg (s : State) (n : BitVec 4) (v : Word) : (s.setSegment n v).seg = s.seg.set n.toNat v n.isLt := rfl
@[simp] theorem State.setSegment_pcache (s : State) (n : BitVec 4) (v : Word) : (s.setSegment n v).pcache = s.pcache := rfl
@[simp] theorem State.setSegment_errOvf (s : State) (n : BitVec 4) (v : Word) : (s.setSegment n v).errOvf = s.errOvf := rfl
@[simp] theorem State.setSegment_stack (s : State) (n : BitVec 4) (v : Word) : (s.setSegment n v).stack = s.stack := rfl
@[simp] theorem State.setSegment_run (s : State) (n : BitVec 4) (v : Word) : (s.setSegment n v).run = s.run := rfl
@[simp] theorem State.setSegment_icount (s : State) (n : BitVec 4) (v : Word) : (s.setSegment n v).icount = s.icount := rfl
@[simp] theorem State.setSegment_regs (s : State) (n : BitVec 4) (v : Word) : (s.setSegment n v).regs = s.regs := rfl
@[simp] theorem State.setSegment_trace (s : State) (n : BitVec 4) (v : Word) : (s.setSegment n v).trace = s.trace := rfl
@[simp] theorem State.setSegment_mem (s : State) (n : BitVec 4) (v : Word) : (s.setSegment n v).mem = s.mem := rfl
@[simp] theorem State.setSegment_input (s : State) (n : BitVec 4) (v : Word) : (s.setSegment n v).input = s.input := rfl
@[simp] theorem State.setSegment_host (s : State) (n : BitVec 4) (v : Word) : (s.setSegment n v).host = s.host := rfl

/-! ### emit -/

@[simp] theorem State.emit_cfg (s : State) (e : Event) : (s.emit e).cfg = s.cfg := rfl
@[simp] theorem State.emit_seg (s : State) (e : Event) : (s.emit e).seg = s.seg := rfl
@[simp] theorem State.emit_pcache (s : State) (e : Event) : (s.emit e).pcache = s.pcache := rfl
@[simp] theorem State.emit_errOvf (s : State) (e : Event) : (s.emit e).errOvf = s.errOvf := rfl
@[simp] theorem State.emit_stack (s : State) (e : Event) : (s.emit e).stack = s.stack := rfl
@[simp] theorem State.emit_run (s : State) (e : Event) : (s.emit e).run = s.run := rfl
@[simp] theorem State.emit_icount (s : State) (e : Event) : (s.emit e).icount = s.icount := rfl
@[simp] theorem State.emit_regs (s : State) (e : Event) : (s.emit e).regs = s.regs := rfl
@[simp] theorem State.emit_trace (s : State) (e : Event) : (s.emit e).trace = s.trace ++ [{ event := e, snap := s.regs }] := rfl
@[simp] theorem State.emit_mem (s : State) (e : Event) : (s.emit e).mem = s.mem := rfl
@[simp] theorem State.emit_input (s : State) (e : Event) : (s.emit e).input = s.input := rfl
@[simp] theorem State.emit_host (s : State) (e : Event) : (s.emit e).host = s.host := rfl

/-! ### raise -/

@[simp] theorem State.raise_cfg (s : State) (t : Trap) : (s.raise t).cfg = s.cfg := rfl
@[simp] theorem State.raise_seg (s : State) (t : Trap) : (s.raise t).seg = s.seg := rfl
@[simp] theorem State.raise_pcache (s : State) (t : Trap) : (s.raise t).pcache = s.pcache := rfl
@[simp] theorem State.raise_errOvf (s : State) (t : Trap) : (s.raise t).errOvf = s.errOvf := rfl
@[simp] theorem State.raise_stack (s : State) (t : Trap) : (s.raise t).stack = s.stack := rfl
@[simp] theorem State.raise_run (s : State) (t : Trap) : (s.raise t).run = .faulted t := rfl
@[simp] theorem State.raise_icount (s : State) (t : Trap) : (s.raise t).icount = s.icount := rfl
@[simp] theorem State.raise_regs (s : State) (t : Trap) : (s.raise t).regs = s.regs := rfl
@[simp] theorem State.raise_trace (s : State) (t : Trap) : (s.raise t).trace = s.trace := rfl
@[simp] theorem State.raise_mem (s : State) (t : Trap) : (s.raise t).mem = s.mem := rfl
@[simp] theorem State.raise_input (s : State) (t : Trap) : (s.raise t).input = s.input := rfl
@[simp] theorem State.raise_host (s : State) (t : Trap) : (s.raise t).host = s.host := rfl

/-! ### push -/

@[simp] theorem State.push_cfg (s : State) (a : Nat) (c : Option Nat) : (s.push a c).cfg = s.cfg := by
  unfold State.push; split <;> rfl
@[simp] theorem State.push_seg (s : State) (a : Nat) (c : Option Nat) : (s.push a c).seg = s.seg := by
  unfold State.push; split <;> rfl
@[simp] theorem State.push_pcache (s : State) (a : Nat) (c : Option Nat) : (s.push a c).pcache = s.pcache := by
  unfold State.push; split <;> rfl
@[simp] theorem State.push_errOvf (s : State) (a : Nat) (c : Option Nat) : (s.push a c).errOvf = if s.depth = stackMax then true else s.errOvf := by
  unfold State.push; split <;> rfl
@[simp] theorem State.push_stack (s : State) (a : Nat) (c : Option Nat) : (s.push a c).stack = if s.depth = stackMax then s.stack else { addr := a, cnt := c } :: s.stack := by
  unfold State.push; split <;> rfl
@[simp] theorem State.push_run (s : State) (a : Nat) (c : Option Nat) : (s.push a c).run = s.run := by
  unfold State.push; split <;> rfl
@[simp] theorem State.push_icount (s : State) (a : Nat) (c : Option Nat) : (s.push a c).icount = s.icount := by
  unfold State.push; split <;> rfl
@[simp] theorem State.push_regs (s : State) (a : Nat) (c : Option Nat) : (s.push a c).regs = s.regs := by
  unfold State.push; split <;> rfl
@[simp] theorem State.push_trace (s : State) (a : Nat) (c : Option Nat) : (s.push a c).trace = s.trace := by
  unfold State.push; split <;> rfl
@[simp] theorem State.push_mem (s : State) (a : Nat) (c : Option Nat) : (s.push a c).mem = s.mem := by
  unfold State.push; split <;> rfl
@[simp] theorem State.push_input (s : State) (a : Nat) (c : Option Nat) : (s.push a c).input = s.input := by
  unfold State.push; split <;> rfl
@[simp] theorem State.push_host (s : State) (a : Nat) (c : Option Nat) : (s.push a c).host = s.host := by
  unfold State.push; split <;> rfl

/-! ### afterFetch -/

@[simp] theorem State.afterFetch_cfg (s : State) (top : Frame) (below : List Frame) : (s.afterFetch top below).cfg = s.cfg := rfl
@[simp] theorem State.afterFetch_seg (s : State) (top : Frame) (below : List Frame) : (s.afterFetch top below).seg = s.seg := rfl
@[simp] theorem State.afterFetch_pcache (s : State) (top : Frame) (below : List Frame) : (s.afterFetch top below).pcache = s.pcache := rfl
@[simp] theorem State.afterFetch_errOvf (s : State) (top : Frame) (below : List Frame) : (s.afterFetch top below).errOvf = s.errOvf := rfl
@[simp] theorem State.afterFetch_stack (s : State) (top : Frame) (below : List Frame) : (s.afterFetch top below).stack = top.fetched :: below := rfl
@[simp] theorem State.afterFetch_run (s : State) (top : Frame) (below : List Frame) : (s.afterFetch top below).run = s.run := rfl
@[simp] theorem State.afterFetch_icount (s : State) (top : Frame) (below : List Frame) : (s.afterFetch top below).icount = s.icount + 1 := rfl
@[simp] theorem State.afterFetch_regs (s : State) (top : Frame) (below : List Frame) : (s.afterFetch top below).regs = s.regs := rfl
@[simp] theorem State.afterFetch_trace (s : State) (top : Frame) (below : List Frame) : (s.afterFetch top below).trace = s.trace := rfl
@[simp] theorem State.afterFetch_mem (s : State) (top : Frame) (below : List Frame) : (s.afterFetch top below).mem = s.mem := rfl
@[simp] theorem State.afterFetch_input (s : State) (top : Frame) (below : List Frame) : (s.afterFetch top below).input = s.input := rfl
@[simp] theorem State.afterFetch_host (s : State) (top : Frame) (below : List Frame) : (s.afterFetch top below).host = s.host := rfl

/-! ### finish -/

@[simp] theorem State.finish_cfg (s : State) : (s.finish).cfg = s.cfg := rfl
@[simp] theorem State.finish_seg (s : State) : (s.finish).seg = s.seg := rfl
@[simp] theorem State.finish_pcache (s : State) : (s.finish).pcache = s.pcache := rfl
@[simp] theorem State.finish_errOvf (s : State) : (s.finish).errOvf = s.errOvf := rfl
@[simp] theorem State.finish_stack (s : State) : (s.finish).stack = s.stack := rfl
@[simp] theorem State.finish_run (s : State) : (s.finish).run = .done := rfl
@[simp] theorem State.finish_icount (s : State) : (s.finish).icount = s.icount := rfl
@[simp] theorem State.finish_regs (s : State) : (s.finish).regs = s.regs := rfl
@[simp] theorem State.finish_trace (s : State) : (s.finish).trace = s.trace ++ [{ event := .sceneEnd, snap := s.regs }] ++ [{ event := .irqDone, snap := s.regs }] := rfl
@[simp] theorem State.finish_mem (s : State) : (s.finish).mem = s.mem := rfl
@[simp] theorem State.finish_input (s : State) : (s.finish).input = s.input := rfl
@[simp] theorem State.finish_host (s : State) : (s.finish).host = s.host := rfl

/-! ### afterHandler -/

@[simp] theorem State.afterHandler_cfg (s : State) : (s.afterHandler).cfg = s.cfg := by
  unfold State.afterHandler; split <;> rfl
@[simp] theorem State.afterHandler_seg (s : State) : (s.afterHandler).seg = s.seg := by
  unfold State.afterHandler; split <;> rfl
@[simp] theorem State.afterHandler_pcache (s : State) : (s.afterHandler).pcache = s.pcache := by
  unfold State.afterHandler; split <;> rfl
@[simp] theorem State.afterHandler_errOvf (s : State) : (s.afterHandler).errOvf = s.errOvf := by
  unfold State.afterHandler; split <;> rfl
@[simp] theorem State.afterHandler_stack (s : State) : (s.afterHandler).stack = if s.run = .running then dropExhausted s.stack else s.stack := by
  unfold State.afterHandler; split <;> rfl
@[simp] theorem State.afterHandler_run (s : State) : (s.afterHandler).run = s.run := by
  unfold State.afterHandler; split <;> rfl
@[simp] theorem State.afterHandler_icount (s : State) : (s.afterHandler).icount = s.icount := by
  unfold State.afterHandler; split <;> rfl
@[simp] theorem State.afterHandler_regs (s : State) : (s.afterHandler).regs = s.regs := by
  unfold State.afterHandler; split <;> rfl
@[simp] theorem State.afterHandler_trace (s : State) : (s.afterHandler).trace = s.trace := by
  unfold State.afterHandler; split <;> rfl
@[simp] theorem State.afterHandler_mem (s : State) : (s.afterHandler).mem = s.mem := by
  unfold State.afterHandler; split <;> rfl
@[simp] theorem State.afterHandler_input (s : State) : (s.afterHandler).input = s.input := by
  unfold State.afterHandler; split <;> rfl
@[simp] theorem State.afterHandler_host (s : State) : (s.afterHandler).host = s.host := by
  unfold State.afterHandler; split <;> rfl

/-! ### perFrameReset -/

@[simp] theorem State.perFrameReset_cfg (s : State) (task : Task) : (s.perFrameReset task).cfg = s.cfg := rfl
@[simp] theorem State.perFrameReset_seg (s : State) (task : Task) : (s.perFrameReset task).seg = s.seg := rfl
@[simp] theorem State.perFrameReset_pcache (s : State) (task : Task) : (s.perFrameReset task).pcache = s.pcache := rfl
@[simp] theorem State.perFrameReset_errOvf (s : State) (task : Task) : (s.perFrameReset task).errOvf = s.errOvf := rfl
@[simp] theorem State.perFrameReset_stack (s : State) (task : Task) : (s.perFrameReset task).stack = [{ addr := task.entry, cnt := none }] := rfl
@[simp] theorem State.perFrameReset_run (s : State) (task : Task) : (s.perFrameReset task).run = s.run := rfl
@[simp] theorem State.perFrameReset_icount (s : State) (task : Task) : (s.perFrameReset task).icount = 0 := rfl
@[simp] theorem State.perFrameReset_regs (s : State) (task : Task) : (s.perFrameReset task).regs = clearedRegs s.cfg.scissorReset := rfl
@[simp] theorem State.perFrameReset_trace (s : State) (task : Task) : (s.perFrameReset task).trace = [] := rfl
@[simp] theorem State.perFrameReset_mem (s : State) (task : Task) : (s.perFrameReset task).mem = s.mem := rfl
@[simp] theorem State.perFrameReset_input (s : State) (task : Task) : (s.perFrameReset task).input = s.input := rfl
@[simp] theorem State.perFrameReset_host (s : State) (task : Task) : (s.perFrameReset task).host = s.host := rfl

/-! ### resolveProfile -/

@[simp] theorem State.resolveProfile_cfg (s : State) (task : Task) : (s.resolveProfile task).cfg = s.cfg := by
  unfold State.resolveProfile; split <;> rfl
@[simp] theorem State.resolveProfile_seg (s : State) (task : Task) : (s.resolveProfile task).seg = s.seg := by
  unfold State.resolveProfile; split <;> rfl
@[simp] theorem State.resolveProfile_errOvf (s : State) (task : Task) : (s.resolveProfile task).errOvf = s.errOvf := by
  unfold State.resolveProfile; split <;> rfl
@[simp] theorem State.resolveProfile_stack (s : State) (task : Task) : (s.resolveProfile task).stack = s.stack := by
  unfold State.resolveProfile; split <;> rfl
@[simp] theorem State.resolveProfile_run (s : State) (task : Task) : (s.resolveProfile task).run = s.run := by
  unfold State.resolveProfile; split <;> rfl
@[simp] theorem State.resolveProfile_icount (s : State) (task : Task) : (s.resolveProfile task).icount = s.icount := by
  unfold State.resolveProfile; split <;> rfl
@[simp] theorem State.resolveProfile_regs (s : State) (task : Task) : (s.resolveProfile task).regs = s.regs := by
  unfold State.resolveProfile; split <;> rfl
@[simp] theorem State.resolveProfile_trace (s : State) (task : Task) : (s.resolveProfile task).trace = s.trace := by
  unfold State.resolveProfile; split <;> rfl
@[simp] theorem State.resolveProfile_mem (s : State) (task : Task) : (s.resolveProfile task).mem = s.mem := by
  unfold State.resolveProfile; split <;> rfl
@[simp] theorem State.resolveProfile_input (s : State) (task : Task) : (s.resolveProfile task).input = s.input := by
  unfold State.resolveProfile; split <;> rfl
@[simp] theorem State.resolveProfile_host (s : State) (task : Task) : (s.resolveProfile task).host = s.host := by
  unfold State.resolveProfile; split <;> rfl

/-! ### powerOn -/

@[simp] theorem State.powerOn_cfg (s : State) : (s.powerOn).cfg = s.cfg := rfl
@[simp] theorem State.powerOn_seg (s : State) : (s.powerOn).seg = State.reset.seg := rfl
@[simp] theorem State.powerOn_pcache (s : State) : (s.powerOn).pcache = State.reset.pcache := rfl
@[simp] theorem State.powerOn_errOvf (s : State) : (s.powerOn).errOvf = State.reset.errOvf := rfl
@[simp] theorem State.powerOn_stack (s : State) : (s.powerOn).stack = State.reset.stack := rfl
@[simp] theorem State.powerOn_run (s : State) : (s.powerOn).run = State.reset.run := rfl
@[simp] theorem State.powerOn_icount (s : State) : (s.powerOn).icount = State.reset.icount := rfl
@[simp] theorem State.powerOn_regs (s : State) : (s.powerOn).regs = clearedRegs s.cfg.scissorReset := rfl
@[simp] theorem State.powerOn_trace (s : State) : (s.powerOn).trace = State.reset.trace := rfl
@[simp] theorem State.powerOn_mem (s : State) : (s.powerOn).mem = s.mem := rfl
@[simp] theorem State.powerOn_input (s : State) : (s.powerOn).input = State.reset.input := rfl
@[simp] theorem State.powerOn_host (s : State) : (s.powerOn).host = s.host := rfl

/-! ### offerScissor -/

@[simp] theorem State.offerScissor_cfg (s : State) (r : Scissor) : (s.offerScissor r).cfg = s.cfg := by
  unfold State.offerScissor; split <;> rfl
@[simp] theorem State.offerScissor_seg (s : State) (r : Scissor) : (s.offerScissor r).seg = s.seg := by
  unfold State.offerScissor; split <;> rfl
@[simp] theorem State.offerScissor_pcache (s : State) (r : Scissor) : (s.offerScissor r).pcache = s.pcache := by
  unfold State.offerScissor; split <;> rfl
@[simp] theorem State.offerScissor_errOvf (s : State) (r : Scissor) : (s.offerScissor r).errOvf = s.errOvf := by
  unfold State.offerScissor; split <;> rfl
@[simp] theorem State.offerScissor_stack (s : State) (r : Scissor) : (s.offerScissor r).stack = s.stack := by
  unfold State.offerScissor; split <;> rfl
@[simp] theorem State.offerScissor_run (s : State) (r : Scissor) : (s.offerScissor r).run = s.run := by
  unfold State.offerScissor; split <;> rfl
@[simp] theorem State.offerScissor_icount (s : State) (r : Scissor) : (s.offerScissor r).icount = s.icount := by
  unfold State.offerScissor; split <;> rfl
@[simp] theorem State.offerScissor_regs (s : State) (r : Scissor) : (s.offerScissor r).regs = if acceptable r then { s.regs with scissor := r } else s.regs := by
  unfold State.offerScissor; split <;> rfl
@[simp] theorem State.offerScissor_mem (s : State) (r : Scissor) : (s.offerScissor r).mem = s.mem := by
  unfold State.offerScissor; split <;> rfl
@[simp] theorem State.offerScissor_input (s : State) (r : Scissor) : (s.offerScissor r).input = s.input := by
  unfold State.offerScissor; split <;> rfl
@[simp] theorem State.offerScissor_host (s : State) (r : Scissor) : (s.offerScissor r).host = s.host := by
  unfold State.offerScissor; split <;> rfl

/-! ### announceViewport -/

@[simp] theorem State.announceViewport_cfg (s : State) : (s.announceViewport).cfg = s.cfg := by
  unfold State.announceViewport; split <;> rfl
@[simp] theorem State.announceViewport_seg (s : State) : (s.announceViewport).seg = s.seg := by
  unfold State.announceViewport; split <;> rfl
@[simp] theorem State.announceViewport_pcache (s : State) : (s.announceViewport).pcache = s.pcache := by
  unfold State.announceViewport; split <;> rfl
@[simp] theorem State.announceViewport_errOvf (s : State) : (s.announceViewport).errOvf = s.errOvf := by
  unfold State.announceViewport; split <;> rfl
@[simp] theorem State.announceViewport_stack (s : State) : (s.announceViewport).stack = s.stack := by
  unfold State.announceViewport; split <;> rfl
@[simp] theorem State.announceViewport_run (s : State) : (s.announceViewport).run = s.run := by
  unfold State.announceViewport; split <;> rfl
@[simp] theorem State.announceViewport_icount (s : State) : (s.announceViewport).icount = s.icount := by
  unfold State.announceViewport; split <;> rfl
@[simp] theorem State.announceViewport_regs (s : State) : (s.announceViewport).regs = s.regs := by
  unfold State.announceViewport; split <;> rfl
@[simp] theorem State.announceViewport_mem (s : State) : (s.announceViewport).mem = s.mem := by
  unfold State.announceViewport; split <;> rfl
@[simp] theorem State.announceViewport_input (s : State) : (s.announceViewport).input = s.input := by
  unfold State.announceViewport; split <;> rfl
@[simp] theorem State.announceViewport_host (s : State) : (s.announceViewport).host = s.host := by
  unfold State.announceViewport; split <;> rfl

/-! ### drawTextured -/

@[simp] theorem State.drawTextured_cfg (s : State) (r : Rect) (e : Event) : (s.drawTextured r e).cfg = s.cfg := by
  unfold State.drawTextured; split <;> rfl
@[simp] theorem State.drawTextured_seg (s : State) (r : Rect) (e : Event) : (s.drawTextured r e).seg = s.seg := by
  unfold State.drawTextured; split <;> rfl
@[simp] theorem State.drawTextured_pcache (s : State) (r : Rect) (e : Event) : (s.drawTextured r e).pcache = s.pcache := by
  unfold State.drawTextured; split <;> rfl
@[simp] theorem State.drawTextured_errOvf (s : State) (r : Rect) (e : Event) : (s.drawTextured r e).errOvf = s.errOvf := by
  unfold State.drawTextured; split <;> rfl
@[simp] theorem State.drawTextured_stack (s : State) (r : Rect) (e : Event) : (s.drawTextured r e).stack = s.stack := by
  unfold State.drawTextured; split <;> rfl
@[simp] theorem State.drawTextured_run (s : State) (r : Rect) (e : Event) : (s.drawTextured r e).run = s.run := by
  unfold State.drawTextured; split <;> rfl
@[simp] theorem State.drawTextured_icount (s : State) (r : Rect) (e : Event) : (s.drawTextured r e).icount = s.icount := by
  unfold State.drawTextured; split <;> rfl
@[simp] theorem State.drawTextured_regs (s : State) (r : Rect) (e : Event) : (s.drawTextured r e).regs = s.regs := by
  unfold State.drawTextured; split <;> rfl
@[simp] theorem State.drawTextured_mem (s : State) (r : Rect) (e : Event) : (s.drawTextured r e).mem = s.mem := by
  unfold State.drawTextured; split <;> rfl
@[simp] theorem State.drawTextured_input (s : State) (r : Rect) (e : Event) : (s.drawTextured r e).input = s.input := by
  unfold State.drawTextured; split <;> rfl
@[simp] theorem State.drawTextured_host (s : State) (r : Rect) (e : Event) : (s.drawTextured r e).host = s.host := by
  unfold State.drawTextured; split <;> rfl

/-! ### emitLight -/

@[simp] theorem State.emitLight_cfg (s : State) (n : Fin 8) (b : List Byte) : (s.emitLight n b).cfg = s.cfg := by
  unfold State.emitLight; dsimp only; split <;> rfl
@[simp] theorem State.emitLight_seg (s : State) (n : Fin 8) (b : List Byte) : (s.emitLight n b).seg = s.seg := by
  unfold State.emitLight; dsimp only; split <;> rfl
@[simp] theorem State.emitLight_pcache (s : State) (n : Fin 8) (b : List Byte) : (s.emitLight n b).pcache = s.pcache := by
  unfold State.emitLight; dsimp only; split <;> rfl
@[simp] theorem State.emitLight_errOvf (s : State) (n : Fin 8) (b : List Byte) : (s.emitLight n b).errOvf = s.errOvf := by
  unfold State.emitLight; dsimp only; split <;> rfl
@[simp] theorem State.emitLight_stack (s : State) (n : Fin 8) (b : List Byte) : (s.emitLight n b).stack = s.stack := by
  unfold State.emitLight; dsimp only; split <;> rfl
@[simp] theorem State.emitLight_run (s : State) (n : Fin 8) (b : List Byte) : (s.emitLight n b).run = s.run := by
  unfold State.emitLight; dsimp only; split <;> rfl
@[simp] theorem State.emitLight_icount (s : State) (n : Fin 8) (b : List Byte) : (s.emitLight n b).icount = s.icount := by
  unfold State.emitLight; dsimp only; split <;> rfl
@[simp] theorem State.emitLight_regs (s : State) (n : Fin 8) (b : List Byte) : (s.emitLight n b).regs = s.regs := by
  unfold State.emitLight; dsimp only; split <;> rfl
@[simp] theorem State.emitLight_mem (s : State) (n : Fin 8) (b : List Byte) : (s.emitLight n b).mem = s.mem := by
  unfold State.emitLight; dsimp only; split <;> rfl
@[simp] theorem State.emitLight_input (s : State) (n : Fin 8) (b : List Byte) : (s.emitLight n b).input = s.input := by
  unfold State.emitLight; dsimp only; split <;> rfl
@[simp] theorem State.emitLight_host (s : State) (n : Fin 8) (b : List Byte) : (s.emitLight n b).host = s.host := by
  unfold State.emitLight; dsimp only; split <;> rfl

/-! ### fillRectangle -/

@[simp] theorem State.fillRectangle_cfg (s : State) (r : Rect) : (s.fillRectangle r).cfg = s.cfg := by
  unfold State.fillRectangle; repeat (first | rfl | split)
@[simp] theorem State.fillRectangle_seg (s : State) (r : Rect) : (s.fillRectangle r).seg = s.seg := by
  unfold State.fillRectangle; repeat (first | rfl | split)
@[simp] theorem State.fillRectangle_pcache (s : State) (r : Rect) : (s.fillRectangle r).pcache = s.pcache := by
  unfold State.fillRectangle; repeat (first | rfl | split)
@[simp] theorem State.fillRectangle_errOvf (s : State) (r : Rect) : (s.fillRectangle r).errOvf = s.errOvf := by
  unfold State.fillRectangle; repeat (first | rfl | split)
@[simp] theorem State.fillRectangle_stack (s : State) (r : Rect) : (s.fillRectangle r).stack = s.stack := by
  unfold State.fillRectangle; repeat (first | rfl | split)
@[simp] theorem State.fillRectangle_run (s : State) (r : Rect) : (s.fillRectangle r).run = s.run := by
  unfold State.fillRectangle; repeat (first | rfl | split)
@[simp] theorem State.fillRectangle_icount (s : State) (r : Rect) : (s.fillRectangle r).icount = s.icount := by
  unfold State.fillRectangle; repeat (first | rfl | split)
@[simp] theorem State.fillRectangle_regs (s : State) (r : Rect) : (s.fillRectangle r).regs = s.regs := by
  unfold State.fillRectangle; repeat (first | rfl | split)
@[simp] theorem State.fillRectangle_mem (s : State) (r : Rect) : (s.fillRectangle r).mem = s.mem := by
  unfold State.fillRectangle; repeat (first | rfl | split)
@[simp] theorem State.fillRectangle_input (s : State) (r : Rect) : (s.fillRectangle r).input = s.input := by
  unfold State.fillRectangle; repeat (first | rfl | split)
@[simp] theorem State.fillRectangle_host (s : State) (r : Rect) : (s.fillRectangle r).host = s.host := by
  unfold State.fillRectangle; repeat (first | rfl | split)

/-! ### Segment registers -/

/-- A segment write is seen in its own register (10_state.md R30). -/
@[simp] theorem State.segment_setSegment_same (s : State) (n : BitVec 4) (v : Word) :
    (s.setSegment n v).segment n = v := by
  simp [State.segment, State.setSegment, Vector.get_eq_getElem]

/-- A segment write leaves the other registers alone (20_memory.md R66). -/
theorem State.segment_setSegment_other (s : State) {n k : BitVec 4} (v : Word) (h : k ≠ n) :
    (s.setSegment n v).segment k = s.segment k := by
  have hne : n.toNat ≠ k.toNat := fun e => h (BitVec.eq_of_toNat_eq e.symm)
  simp [State.segment, State.setSegment, Vector.get_eq_getElem, Vector.getElem_set_ne, hne]

/-- `segment` reads SEG and nothing else. -/
theorem State.segment_congr {s t : State} (h : t.seg = s.seg) (n : BitVec 4) : t.segment n = s.segment n := by
  simp [State.segment, h]

/-- `resolve` reads SEG and nothing else (20_memory.md R65). -/
theorem State.resolve_congr {s t : State} (h : t.seg = s.seg) (sa : Word) : t.resolve sa = s.resolve sa := by
  simp [State.resolve, State.segment_congr h]

end Sys2Proof.Machine
end

