-- ==== Sys2Proof/Laws/Memory.lean ====
section
/-! SUPPORT. The laws of guest memory: the canonical form is kept, and a read after a write (20_memory.md R60, R61). -/

namespace Sys2Proof.Machine

/-! ### The canonical form -/

theorem Memory.wf_cons {k : Nat} {b : Byte} {m : Memory} :
    Memory.wf ((k, b) :: m) = true ↔ b ≠ Memory.unlisted ∧ Memory.above k m = true ∧ Memory.wf m = true := by
  simp [Memory.wf, and_assoc]

theorem Memory.above_mono {a k : Nat} {m : Memory} (h : Memory.above k m = true) (hak : a ≤ k) :
    Memory.above a m = true := by
  cases m with
  | nil => rfl
  | cons c rest => simp only [Memory.above, decide_eq_true_eq] at h ⊢; omega

/-- A write at or above a bound keeps the list above what lies below it. -/
theorem Memory.above_write {k a : Nat} {m : Memory} (v : Byte) (hka : k < a)
    (hm : Memory.above k m = true) (hwf : Memory.wf m = true) : Memory.above k (Memory.write m a v) = true := by
  cases m with
  | nil => unfold Memory.write; split <;> simp [Memory.above, hka]
  | cons c rest =>
    obtain ⟨j, b⟩ := c
    obtain ⟨-, hj, -⟩ := Memory.wf_cons.mp hwf
    have hkj : k < j := by simpa [Memory.above] using hm
    unfold Memory.write
    split
    · split <;> simp [Memory.above, hka, hkj]
    · split
      · split
        · exact Memory.above_mono hj hkj.le
        · simpa [Memory.above] using hka
      · simpa [Memory.above] using hkj

/-- A write keeps the canonical form. -/
theorem Memory.write_wf (m : Memory) (a : Nat) (v : Byte) (h : Memory.wf m = true) :
    Memory.wf (Memory.write m a v) = true := by
  induction m with
  | nil => unfold Memory.write; split <;> simp_all [Memory.wf, Memory.above]
  | cons c rest ih =>
    obtain ⟨k, b⟩ := c
    obtain ⟨hb, hk, hrest⟩ := Memory.wf_cons.mp h
    unfold Memory.write
    split
    · rename_i hak
      split
      · exact h
      · rename_i hv
        exact Memory.wf_cons.mpr ⟨hv, by simpa [Memory.above] using hak, h⟩
    · split
      · rename_i hak
        split
        · exact hrest
        · rename_i hv
          exact Memory.wf_cons.mpr ⟨hv, by rw [hak]; exact hk, hrest⟩
      · exact Memory.wf_cons.mpr ⟨hb, Memory.above_write v (by omega) hk hrest, ih hrest⟩

/-- Writing bytes keeps the canonical form. -/
theorem Memory.writeBytes_wf (bytes : List Byte) : ∀ (m : Memory) (a : Nat), Memory.wf m = true →
    Memory.wf (Memory.writeBytes m a bytes) = true := by
  induction bytes with
  | nil => intro m a h; exact h
  | cons b rest ih => intro m a h; exact ih _ _ (Memory.write_wf m a b h)

/-- Power-on memory is canonical. -/
theorem reset_mem_wf : Memory.wf State.reset.mem = true := rfl

/-! ### Reads after writes -/

/-- Nothing is listed at or below a bound the list is above. -/
theorem Memory.read_of_above {m : Memory} : ∀ {k a : Nat}, Memory.above k m = true → Memory.wf m = true → a ≤ k →
    Memory.read m a = Memory.unlisted := by
  induction m with
  | nil => intros; rfl
  | cons c rest ih =>
    obtain ⟨j, b⟩ := c
    intro k a hk hwf hak
    obtain ⟨-, hj, hrest⟩ := Memory.wf_cons.mp hwf
    have hkj : k < j := by simpa [Memory.above] using hk
    unfold Memory.read
    rw [if_neg (by omega)]
    exact ih hj hrest (by omega)

/-- A read after a write gives the byte written at its offset, and elsewhere what it gave before. -/
theorem Memory.read_write (m : Memory) (a : Nat) (v : Byte) (h : Memory.wf m = true) (b : Nat) :
    Memory.read (Memory.write m a v) b = if b = a then v else Memory.read m b := by
  induction m with
  | nil =>
    unfold Memory.write
    by_cases hb : b = a
    · subst hb
      rw [if_pos rfl]
      split
      · rename_i hv; rw [hv]; rfl
      · simp [Memory.read]
    · rw [if_neg hb]
      have hab : a ≠ b := fun e => hb e.symm
      split <;> simp [Memory.read, hab]
  | cons c rest ih =>
    obtain ⟨k, x⟩ := c
    obtain ⟨hx, hk, hrest⟩ := Memory.wf_cons.mp h
    unfold Memory.write
    split
    · rename_i hak
      split
      · rename_i hv
        by_cases hb : b = a
        · subst hb
          rw [if_pos rfl, hv]
          exact Memory.read_of_above (k := b) (by simpa [Memory.above] using hak) h le_rfl
        · rw [if_neg hb]
      · by_cases hb : b = a
        · subst hb; simp [Memory.read]
        · rw [if_neg hb]; conv_lhs => unfold Memory.read
          rw [if_neg (fun e => hb e.symm)]
    · split
      · rename_i hak
        subst hak
        by_cases hb : b = a
        · subst hb
          rw [if_pos rfl]
          split
          · rename_i hv
            rw [hv]
            exact Memory.read_of_above hk hrest le_rfl
          · simp [Memory.read]
        · rw [if_neg hb]
          have hab : a ≠ b := fun e => hb e.symm
          split <;> simp [Memory.read, hab]
      · rename_i hlt hne
        conv_lhs => unfold Memory.read
        conv_rhs => unfold Memory.read
        by_cases hkb : k = b
        · subst hkb
          rw [if_pos rfl, if_neg (fun e => hne e.symm), if_pos rfl]
        · rw [if_neg hkb, if_neg hkb]; exact ih hrest

/-- Reads after writing bytes. -/
theorem Memory.read_writeBytes (bytes : List Byte) : ∀ (m : Memory) (a : Nat), Memory.wf m = true → ∀ b : Nat,
    Memory.read (Memory.writeBytes m a bytes) b =
      if a ≤ b ∧ b < a + bytes.length then bytes.getD (b - a) 0 else Memory.read m b := by
  induction bytes with
  | nil => intro m a _ b; rw [if_neg (by simp)]; rfl
  | cons x rest ih =>
    intro m a h b
    unfold Memory.writeBytes
    rw [ih _ _ (Memory.write_wf m a x h) b, Memory.read_write m a x h b]
    by_cases hba : b = a
    · subst hba
      rw [if_neg (by omega), if_pos rfl, if_pos (by simp)]
      simp
    · rw [if_neg hba]
      by_cases hin : a + 1 ≤ b ∧ b < a + 1 + rest.length
      · rw [if_pos hin, if_pos (by simp only [List.length_cons]; omega)]
        obtain ⟨d, hd⟩ : ∃ d, b - a = d + 1 := ⟨b - a - 1, by omega⟩
        rw [hd, show b - (a + 1) = d by omega]
        simp
      · rw [if_neg hin, if_neg (by simp only [List.length_cons]; omega)]

/-! ### Reading bytes -/

@[simp] theorem Memory.length_readBytes (m : Memory) (n : Nat) : ∀ a, (Memory.readBytes m a n).length = n := by
  induction n with
  | zero => intro a; rfl
  | succ n ih => intro a; simp [Memory.readBytes, ih]

/-- Byte `k` of the bytes read from `a` is the byte at `a + k`. -/
theorem Memory.getD_readBytes (m : Memory) (n : Nat) : ∀ (a k : Nat), k < n →
    (Memory.readBytes m a n).getD k 0 = Memory.read m (a + k) := by
  induction n with
  | zero => intro a k hk; omega
  | succ n ih =>
    intro a k hk
    cases k with
    | zero => rfl
    | succ k =>
      have := ih (a + 1) k (by omega)
      simpa [Memory.readBytes, Nat.add_assoc, Nat.add_comm 1 k] using this

/-- A record's byte is the byte of memory it came from. -/
theorem recordByte_readBytes (m : Memory) {n k : Nat} (a : Nat) (hk : k < n) :
    recordByte (Memory.readBytes m a n) k = Memory.read m (a + k) :=
  Memory.getD_readBytes m n a k hk

/-- Reading is by parts: first `k` bytes, then the rest. -/
theorem Memory.readBytes_add (m : Memory) (k n : Nat) : ∀ a,
    Memory.readBytes m a (k + n) = Memory.readBytes m a k ++ Memory.readBytes m (a + k) n := by
  induction k with
  | zero => intro a; simp [Memory.readBytes]
  | succ k ih =>
    intro a
    rw [Nat.succ_add, Memory.readBytes, ih]
    simp [Memory.readBytes, Nat.add_assoc, Nat.add_comm 1 k]

/-- A big-endian number of `n` bytes is below `256 ^ n`. -/
theorem bigEndian_lt (bytes : List Byte) : bigEndian bytes < 256 ^ bytes.length := by
  induction bytes with
  | nil => simp [bigEndian]
  | cons b rest ih =>
    have hb : b.toNat < 256 := b.isLt
    calc b.toNat * 256 ^ rest.length + bigEndian rest
        < b.toNat * 256 ^ rest.length + 256 ^ rest.length := by omega
      _ = (b.toNat + 1) * 256 ^ rest.length := by ring
      _ ≤ 256 * 256 ^ rest.length := Nat.mul_le_mul_right _ (by omega)
      _ = 256 ^ (b :: rest).length := by simp [pow_succ, mul_comm]

end Sys2Proof.Machine
end

