-- ==== Sys2Proof/Laws/Operands.lean ====
section
/-! SUPPORT. The operand forms in the terms the rules use (30_encoding.md R83, 45_rectangles.md R233). -/

namespace Sys2Proof.Machine

/-- `fx` is the quotient (00_scope.md R8). -/
theorem fx_eq_div (raw : Int) (k : Nat) : fx raw k = (raw : Rat) / 2 ^ k := by
  simp [fx, Rat.mkRat_eq_div]

/-- The pixel that COPY and FILL add is one whole pixel (45_rectangles.md R233). -/
theorem fx_add_pixel (raw : Nat) : fx ((raw + 4 : Nat) : Int) 2 = fx raw 2 + 1 := by
  rw [fx_eq_div, fx_eq_div]; push_cast; ring

/-- Two more fraction bits are a quarter (45_rectangles.md R230). -/
theorem fx_quarter (raw : Int) : fx raw 12 = fx raw 10 / 4 := by
  rw [fx_eq_div, fx_eq_div]; ring

/-- The far edges, as 45_rectangles.md R233 writes them. -/
theorem rectOf_x1 (omh : Word) (xh yh xl yl : BitVec 12) :
    (rectOf omh xh yh xl yl).x1 = fx xh.toNat 2 + if isCopy omh || isFill omh then 1 else 0 := by
  unfold rectOf farEdgeExtra
  split
  · exact fx_add_pixel _
  · simp

theorem rectOf_y1 (omh : Word) (xh yh xl yl : BitVec 12) :
    (rectOf omh xh yh xl yl).y1 = fx yh.toNat 2 + if isCopy omh || isFill omh then 1 else 0 := by
  unfold rectOf farEdgeExtra
  split
  · exact fx_add_pixel _
  · simp

/-- DS, as 45_rectangles.md R230 writes it. -/
theorem texCoordsOf_dsdx (omh : Word) (e1 e2 : DWord) :
    (texCoordsOf omh e1 e2).dsdx =
      let ds := fx ((secondHalf e2).extractLsb' 16 16).toInt 10
      if isCopy omh then ds / 4 else ds := by
  unfold texCoordsOf gradientBits
  cases isCopy omh
  · rfl
  · exact fx_quarter _

/-- An image descriptor's width is `wm1 + 1`, which 13 bits hold (42_addressing_image.md R170). -/
theorem imageDesc_width (s : State) (fmt : BitVec 3) (siz : BitVec 2) (wm1 : BitVec 12) (sa : Word) :
    (s.imageDesc fmt siz wm1 sa).width.toNat = wm1.toNat + 1 := by
  have h := wm1.isLt
  simp only [State.imageDesc, BitVec.toNat_add, BitVec.toNat_setWidth, BitVec.ofNat_eq_ofNat, BitVec.toNat_ofNat]
  omega

/-- A scissor coordinate is its raw value divided by 4 (44_raster_state.md R200). -/
theorem wholePixels_eq (v : BitVec 12) : wholePixels v = v.toNat / 4 := by
  simp [wholePixels, Nat.shiftRight_eq_div_pow]

end Sys2Proof.Machine
end

