-- ==== Sys2Proof/Laws/Ops.lean ====
section
/-! SUPPORT. For each shared operation, once, everything it can do: what it answers, and under which condition. -/

namespace Sys2Proof.Machine

/-! ### Reads (00_scope.md R6, 20_memory.md R67 to R69) -/

theorem State.readBytes_ok {s : State} {a n : Nat} (h : a + n ≤ s.cfg.memSize) :
    s.readBytes a n = .ok (Memory.readBytes s.mem a n) := if_pos h

theorem State.readBytes_range {s : State} {a n : Nat} (h : s.cfg.memSize < a + n) :
    s.readBytes a n = .error { code := .range, info := a } := if_neg (by omega)

theorem State.readAligned_ok {s : State} {a n : Nat} (ha : a % 8 = 0) (h : a + n ≤ s.cfg.memSize) :
    s.readAligned a n = .ok (Memory.readBytes s.mem a n) := (if_pos ha).trans (State.readBytes_ok h)

theorem State.readAligned_align {s : State} {a n : Nat} (ha : a % 8 ≠ 0) :
    s.readAligned a n = .error { code := .align, info := a } := if_neg ha

theorem State.readAligned_range {s : State} {a n : Nat} (ha : a % 8 = 0) (h : s.cfg.memSize < a + n) :
    s.readAligned a n = .error { code := .range, info := a } := (if_pos ha).trans (State.readBytes_range h)

/-- What an aligned read can answer. -/
theorem State.readAligned_cases (s : State) (a n : Nat) :
    (a % 8 ≠ 0 ∧ s.readAligned a n = .error { code := .align, info := a }) ∨
    (a % 8 = 0 ∧ s.cfg.memSize < a + n ∧ s.readAligned a n = .error { code := .range, info := a }) ∨
    (a % 8 = 0 ∧ a + n ≤ s.cfg.memSize ∧ s.readAligned a n = .ok (Memory.readBytes s.mem a n)) := by
  by_cases ha : a % 8 = 0
  · by_cases h : a + n ≤ s.cfg.memSize
    · exact .inr (.inr ⟨ha, h, State.readAligned_ok ha h⟩)
    · exact .inr (.inl ⟨ha, by omega, State.readAligned_range ha (by omega)⟩)
  · exact .inl ⟨ha, State.readAligned_align ha⟩

/-- The word a fetch reads: its bytes, big-endian. -/
def wordAt (m : Memory) (a : Nat) : DWord := BitVec.ofNat 64 (bigEndian (Memory.readBytes m a 8))

theorem State.fetchWord_ok {s : State} {a : Nat} (ha : a % 8 = 0) (h : a + 8 ≤ s.cfg.memSize) :
    s.fetchWord a = .ok (wordAt s.mem a) := by simp [State.fetchWord, State.readAligned_ok ha h, wordAt]

theorem State.fetchWord_align {s : State} {a : Nat} (ha : a % 8 ≠ 0) :
    s.fetchWord a = .error { code := .align, info := a } := by simp [State.fetchWord, State.readAligned_align ha]

theorem State.fetchWord_range {s : State} {a : Nat} (ha : a % 8 = 0) (h : s.cfg.memSize < a + 8) :
    s.fetchWord a = .error { code := .range, info := a } := by
  simp [State.fetchWord, State.readAligned_range ha h]

/-- What a fetch can answer. -/
theorem State.fetchWord_cases (s : State) (a : Nat) :
    (a % 8 ≠ 0 ∧ s.fetchWord a = .error { code := .align, info := a }) ∨
    (a % 8 = 0 ∧ s.cfg.memSize < a + 8 ∧ s.fetchWord a = .error { code := .range, info := a }) ∨
    (a % 8 = 0 ∧ a + 8 ≤ s.cfg.memSize ∧ s.fetchWord a = .ok (wordAt s.mem a)) := by
  by_cases ha : a % 8 = 0
  · by_cases h : a + 8 ≤ s.cfg.memSize
    · exact .inr (.inr ⟨ha, h, State.fetchWord_ok ha h⟩)
    · exact .inr (.inl ⟨ha, by omega, State.fetchWord_range ha (by omega)⟩)
  · exact .inl ⟨ha, State.fetchWord_align ha⟩

/-! ### The stack (10_state.md R34, R35) -/

theorem State.pop_cons {s : State} {top : Frame} {below : List Frame} (h : s.stack = top :: below) :
    s.pop = .next (s.setStack below) := by simp [State.pop, h]

theorem State.branch_cons {s : State} {top : Frame} {below : List Frame} (a : Nat) (h : s.stack = top :: below) :
    s.branch a = .next (s.setStack ({ top with addr := a } :: below)) := by simp [State.branch, h]

/-- A pop that goes on took the top frame off. -/
theorem State.pop_next {s t : State} (h : s.pop = .next t) :
    ∃ top below, s.stack = top :: below ∧ t = s.setStack below := by
  unfold State.pop at h
  split at h
  · cases h
  · rename_i top below hs
    injection h with h
    exact ⟨top, below, hs, h.symm⟩

/-- A branch that goes on moved the top frame and kept its counter. -/
theorem State.branch_next {s t : State} {a : Nat} (h : s.branch a = .next t) :
    ∃ top below, s.stack = top :: below ∧ t = s.setStack ({ top with addr := a } :: below) := by
  unfold State.branch at h
  split at h
  · cases h
  · rename_i top below hs
    injection h with h
    exact ⟨top, below, hs, h.symm⟩

/-- A push either adds a frame or, at depth 32, sets ERR_OVF and nothing else. -/
theorem State.push_cases (s : State) (a : Nat) (c : Option Nat) :
    (s.depth = stackMax ∧ s.push a c = { s with errOvf := true }) ∨
    (s.depth ≠ stackMax ∧ s.push a c = s.setStack ({ addr := a, cnt := c } :: s.stack)) := by
  by_cases h : s.depth = stackMax
  · exact .inl ⟨h, if_pos h⟩
  · exact .inr ⟨h, if_neg h⟩

/-! ### Extra words and records (00_scope.md R12, 46_matrix_light.md) -/

/-- What an extra fetch can answer. -/
theorem State.fetchExtra_cases (s : State) :
    (s.stack = [] ∧ s.fetchExtra = .noFrame) ∨
    (∃ top below, s.stack = top :: below ∧
      ((∃ t, s.fetchWord top.addr = .error t ∧ s.fetchExtra = .trapped (s.raise t)) ∨
       (s.fetchWord top.addr = .ok (wordAt s.mem top.addr) ∧
        s.fetchExtra =
          .word (wordAt s.mem top.addr) (s.setStack ({ top with addr := top.addr + 8 } :: below))))) := by
  unfold State.fetchExtra
  split
  · rename_i h; exact .inl ⟨h, rfl⟩
  · rename_i top below h
    refine .inr ⟨top, below, h, ?_⟩
    rcases s.fetchWord_cases top.addr with ⟨-, e⟩ | ⟨-, -, e⟩ | ⟨-, -, e⟩ <;> simp [e]

/-- A handler with extra words that goes on: the first fetch trapped, or the second did, or both words were read. -/
theorem State.withExtras_next {s t : State} {body : DWord → DWord → State → Result}
    (h : s.withExtras body = .next t) :
    ∃ top below, s.stack = top :: below ∧
      let s1 := s.setStack ({ top with addr := top.addr + 8 } :: below)
      let s2 := s1.setStack ({ top with addr := top.addr + 16 } :: below)
      ((∃ trap, s.fetchWord top.addr = .error trap ∧ t = s.raise trap) ∨
       (∃ trap, s.fetchWord (top.addr + 8) = .error trap ∧ t = s1.raise trap) ∨
       body (wordAt s.mem top.addr) (wordAt s.mem (top.addr + 8)) s2 = .next t) := by
  unfold State.withExtras at h
  rcases s.fetchExtra_cases with ⟨-, e⟩ | ⟨top, below, hs, ⟨trap, hf, e⟩ | ⟨hf, e⟩⟩
  · rw [e] at h; cases h
  · rw [e] at h; injection h with h
    exact ⟨top, below, hs, .inl ⟨trap, hf, h.symm⟩⟩
  · rw [e] at h
    refine ⟨top, below, hs, .inr ?_⟩
    dsimp only at h ⊢
    rcases (s.setStack ({ top with addr := top.addr + 8 } :: below)).fetchExtra_cases with
      ⟨hn, -⟩ | ⟨top', below', hs', hrest⟩
    · simp at hn
    · simp only [State.setStack_stack, List.cons.injEq] at hs'
      obtain ⟨rfl, rfl⟩ := hs'
      rcases hrest with ⟨trap, hf', e'⟩ | ⟨hf', e'⟩
      · rw [e'] at h; injection h with h
        exact .inl ⟨trap, hf', h.symm⟩
      · rw [e'] at h
        exact .inr h

/-- A handler with extra words whose two words lie in memory runs its body on them, pc past both. -/
theorem State.withExtras_ok {s : State} {top : Frame} {below : List Frame}
    (body : DWord → DWord → State → Result) (hs : s.stack = top :: below)
    (ha : top.addr % 8 = 0) (hr : top.addr + 16 ≤ s.cfg.memSize) :
    s.withExtras body = body (wordAt s.mem top.addr) (wordAt s.mem (top.addr + 8))
      (s.setStack ({ top with addr := top.addr + 16 } :: below)) := by
  have e1 : s.fetchWord top.addr = .ok (wordAt s.mem top.addr) := State.fetchWord_ok ha (by omega)
  have e2 : (s.setStack ({ top with addr := top.addr + 8 } :: below)).fetchWord (top.addr + 8) =
      .ok (wordAt s.mem (top.addr + 8)) :=
    State.fetchWord_ok (by omega) (by rw [State.setStack_cfg]; omega)
  simp only [State.withExtras, State.fetchExtra, hs, e1, State.setStack_stack, e2]
  rfl

/-- A handler that reads a record goes on: trapped, or with the record's bytes. -/
theorem State.withRecord_next {s t : State} {a n : Nat} {body : List Byte → State}
    (h : s.withRecord a n body = .next t) :
    (∃ trap, s.readAligned a n = .error trap ∧ t = s.raise trap) ∨
    t = body (Memory.readBytes s.mem a n) := by
  unfold State.withRecord at h
  rcases s.readAligned_cases a n with ⟨-, e⟩ | ⟨-, -, e⟩ | ⟨-, -, e⟩ <;> rw [e] at h <;> injection h with h
  · exact .inl ⟨_, e, h.symm⟩
  · exact .inl ⟨_, e, h.symm⟩
  · exact .inr h.symm

theorem State.withRecord_ok {s : State} {a n : Nat} (body : List Byte → State) (ha : a % 8 = 0)
    (h : a + n ≤ s.cfg.memSize) : s.withRecord a n body = .next (body (Memory.readBytes s.mem a n)) := by
  simp [State.withRecord, State.readAligned_ok ha h]

/-! ### The dispatch step (40_dispatch_loop.md R120 to R124) -/

/-- What the part of the step before the handler can answer. -/
theorem State.fetch_cases (s : State) :
    ((s.stack = [] ∨ s.ceilingReached = true) ∧ s.fetch = .ended s.finish) ∨
    (∃ top below, s.stack = top :: below ∧ s.ceilingReached = false ∧
      ((∃ t, s.fetchWord top.addr = .error t ∧ s.fetch = .ended (s.raise t)) ∨
       (s.fetchWord top.addr = .ok (wordAt s.mem top.addr) ∧
        s.fetch = .instruction (wordAt s.mem top.addr) (s.afterFetch top below)))) := by
  unfold State.fetch
  split
  · rename_i h; exact .inl ⟨.inl h, rfl⟩
  · rename_i top below h
    by_cases hc : s.ceilingReached = true
    · rw [if_pos hc]; exact .inl ⟨.inr hc, rfl⟩
    · have hc' : s.ceilingReached = false := by simpa using hc
      rw [if_neg hc]
      refine .inr ⟨top, below, h, hc', ?_⟩
      rcases s.fetchWord_cases top.addr with ⟨-, e⟩ | ⟨-, -, e⟩ | ⟨-, -, e⟩ <;> simp [e]

/-- The frames dropped are exactly the exhausted ones on top. -/
theorem dropExhausted_split (frames : List Frame) :
    ∃ popped, frames = popped ++ dropExhausted frames ∧ (∀ f ∈ popped, f.cnt = some 0) ∧
      ∀ f ∈ (dropExhausted frames).head?, f.cnt ≠ some 0 := by
  induction frames with
  | nil => exact ⟨[], rfl, by simp, by simp [dropExhausted]⟩
  | cons f below ih =>
    unfold dropExhausted
    split
    · rename_i hf
      obtain ⟨popped, he, hp, ht⟩ := ih
      exact ⟨f :: popped, by rw [List.cons_append, ← he], by simpa [hf] using hp, ht⟩
    · rename_i hf
      exact ⟨[], rfl, by simp, by simpa using hf⟩

theorem dropExhausted_length_le (frames : List Frame) : (dropExhausted frames).length ≤ frames.length := by
  obtain ⟨popped, he, -, -⟩ := dropExhausted_split frames
  have := congrArg List.length he
  rw [List.length_append] at this
  omega

/-- A settled handler that goes on went through the exhausted-frame pop. -/
theorem settle_next {r : Result} {t : State} (h : settle r = .next t) :
    ∃ u, r = .next u ∧ t = u.afterHandler := by
  unfold settle at h
  split at h
  · rename_i u; injection h with h; exact ⟨u, rfl, h.symm⟩
  · cases h
  · cases h

/-- What a dispatch step can do: finish, fault in its fetch, or run the decoded instruction's handler. -/
theorem stepRunning_next {s t : State} (h : stepRunning s = .next t) :
    ((s.stack = [] ∨ s.ceilingReached = true) ∧ t = s.finish) ∨
    (∃ top below, s.stack = top :: below ∧ s.ceilingReached = false ∧
      ((∃ trap, s.fetchWord top.addr = .error trap ∧ t = s.raise trap) ∨
       (∃ u, s.fetchWord top.addr = .ok (wordAt s.mem top.addr) ∧
          exec (decodeDWord s.pcache.table (wordAt s.mem top.addr)) (s.afterFetch top below) = .next u ∧
          t = u.afterHandler))) := by
  unfold stepRunning at h
  rcases s.fetch_cases with ⟨hc, e⟩ | ⟨top, below, hs, hc, ⟨trap, hf, e⟩ | ⟨hf, e⟩⟩ <;> rw [e] at h
  · injection h with h; exact .inl ⟨hc, h.symm⟩
  · injection h with h; exact .inr ⟨top, below, hs, hc, .inl ⟨trap, hf, h.symm⟩⟩
  · obtain ⟨u, hu, ht⟩ := settle_next h
    exact .inr ⟨top, below, hs, hc, .inr ⟨u, hf, hu, ht⟩⟩

/-- What a step between Processes can do (40_dispatch_loop.md R130). -/
theorem State.betweenProcesses_next {s t : State} (h : s.betweenProcesses = .next t) :
    (s.host = [] ∧ t = s) ∨
    (∃ later, s.host = .powerOn :: later ∧ t = { s with host := later }.powerOn) ∨
    (∃ a bytes later, s.host = .writeMemory a bytes :: later ∧ a + bytes.length ≤ s.cfg.memSize ∧
      t = { s with host := later, mem := Memory.writeBytes s.mem a bytes }) ∨
    (∃ input later, s.host = .startProcess input :: later ∧ t = { s with host := later }.startProcess input) := by
  unfold State.betweenProcesses at h
  split at h
  · rename_i hh; injection h with h; exact .inl ⟨hh, h.symm⟩
  · rename_i move later hh
    cases move with
    | powerOn => injection h with h; exact .inr (.inl ⟨later, hh, h.symm⟩)
    | writeMemory a bytes =>
      simp only [State.takeMove] at h
      split at h
      · rename_i hle
        injection h with h
        exact .inr (.inr (.inl ⟨a, bytes, later, hh, hle, h.symm⟩))
      · cases h
    | startProcess input => injection h with h; exact .inr (.inr (.inr ⟨input, later, hh, h.symm⟩))

/-- What a faulted machine can do (60_exceptions.md R304). -/
theorem State.whileFaulted_next {s t : State} {trap : Trap} (h : s.whileFaulted trap = .next t) :
    ∃ later, s.host = .powerOn :: later ∧ t = { s with host := later }.powerOn := by
  unfold State.whileFaulted at h
  split at h
  · rename_i later hh; injection h with h; exact ⟨later, hh, h.symm⟩
  · cases h

/-- What a step can do, by RUN. -/
theorem step_next {s t : State} (h : step s = .next t) :
    (s.run = .running ∧ stepRunning s = .next t) ∨
    ((s.run = .idle ∨ s.run = .done) ∧ s.betweenProcesses = .next t) ∨
    (∃ trap, s.run = .faulted trap ∧ s.whileFaulted trap = .next t) := by
  unfold step at h
  split at h
  · rename_i hr; exact .inl ⟨hr, h⟩
  · rename_i hr; exact .inr (.inl ⟨.inl hr, h⟩)
  · rename_i hr; exact .inr (.inl ⟨.inr hr, h⟩)
  · rename_i trap hr; exact .inr (.inr ⟨trap, hr, h⟩)

end Sys2Proof.Machine
end

