-- ==== Sys2Proof/Laws/PerInstr.lean ====
section
/-! SUPPORT. One lemma per instruction: stored in a slot it fits, its word carries that slot's opcode byte
(30_encoding.md R80). -/

namespace Sys2Proof.Laws.OpcodeByte

/-- The word of an instruction that fits slot `op` has `op` as its opcode byte. -/
def Statement (i : Instr) : Prop := ∀ op : BitVec 8, i.fitsSlot op = true → opcodeOf (encodeAt op i) = op

/-! ### The formats -/

theorem of_dma (op p : BitVec 8) (len : BitVec 16) (sa : Word) : opcodeOf (encodeDma op p len sa) = op := by
  unfold encodeDma
  rw [opcodeOf_joinHalves, extract_high _ _ _ _ (by omega), extract_high _ _ _ _ (by omega)]
  exact extract_all op

theorem of_mw (op : BitVec 8) (ofs : BitVec 16) (data : Word) : opcodeOf (encodeMw op ofs data) = op := by
  unfold encodeMw
  rw [opcodeOf_joinHalves, extract_high _ _ _ _ (by omega), extract_high _ _ _ _ (by omega)]
  exact extract_all op

theorem of_om (op sft len : BitVec 8) (data : Word) : opcodeOf (encodeOm op sft len data) = op := by
  unfold encodeOm
  rw [opcodeOf_joinHalves]
  iterate 3 rw [extract_high _ _ _ _ (by omega)]
  exact extract_all op

theorem of_imm (op : BitVec 8) (data : Word) : opcodeOf (encodeImm op data) = op := by
  unfold encodeImm
  rw [opcodeOf_joinHalves, extract_high _ _ _ _ (by omega)]
  exact extract_all op

theorem of_img (op : BitVec 8) (fmt : BitVec 3) (siz : BitVec 2) (wm1 : BitVec 12) (sa : Word) :
    opcodeOf (encodeImg op fmt siz wm1 sa) = op := by
  unfold encodeImg
  rw [opcodeOf_joinHalves]
  iterate 4 rw [extract_high _ _ _ _ (by omega)]
  exact extract_all op

theorem of_prim (op m l : BitVec 8) (color : Word) : opcodeOf (encodePrim op m l color) = op := by
  unfold encodePrim
  rw [opcodeOf_joinHalves]
  iterate 3 rw [extract_high _ _ _ _ (by omega)]
  exact extract_all op

theorem of_low24 (op : BitVec 8) (low : BitVec 24) (w1 : Word) : opcodeOf (encodeLow24 op low w1) = op := by
  unfold encodeLow24
  rw [opcodeOf_joinHalves, extract_high _ _ _ _ (by omega)]
  exact extract_all op

theorem of_scis (op : BitVec 8) (ulx uly : BitVec 12) (mode : BitVec 2) (lrx lry : BitVec 12) :
    opcodeOf (encodeScis op ulx uly mode lrx lry) = op := by
  unfold encodeScis
  rw [opcodeOf_joinHalves]
  iterate 2 rw [extract_high _ _ _ _ (by omega)]
  exact extract_all op

theorem of_rect (op : BitVec 8) (xh yh xl yl : BitVec 12) : opcodeOf (encodeRect op xh yh xl yl) = op := by
  unfold encodeRect
  rw [opcodeOf_joinHalves]
  iterate 2 rw [extract_high _ _ _ _ (by omega)]
  exact extract_all op

theorem of_trect (op : BitVec 8) (xh yh : BitVec 12) (tile : BitVec 3) (xl yl : BitVec 12) :
    opcodeOf (encodeTrect op xh yh tile xl yl) = op := by
  unfold encodeTrect
  rw [opcodeOf_joinHalves]
  iterate 2 rw [extract_high _ _ _ _ (by omega)]
  exact extract_all op

theorem of_raw (op : BitVec 8) : opcodeOf (encodeRaw op) = op := by
  unfold encodeRaw
  rw [opcodeOf_joinHalves, extract_high _ _ _ _ (by omega)]
  exact extract_all op

/-- A forwarded word carries the opcode byte it was checked for. -/
theorem of_forwarded {op : BitVec 8} {w0 : Word} (w1 : Word) (h : carriesOpcode op w0 = true) :
    opcodeOf (joinHalves w0 w1) = op := by
  rw [opcodeOf_joinHalves]
  simpa [carriesOpcode] using h

/-! ### The instructions -/

theorem spnoop : Statement .spnoop := fun op _ => of_raw op
theorem mtx (p : BitVec 8) (len : BitVec 16) (sa : Word) : Statement (.mtx p len sa) := fun op _ => of_dma op p len sa
theorem movememViewport (len : BitVec 16) (sa : Word) :
    Statement (.movememViewport len sa) := fun op _ => of_dma op _ len sa
theorem movememLight0 (len : BitVec 16) (sa : Word) :
    Statement (.movememLight0 len sa) := fun op _ => of_dma op _ len sa
theorem movememLight1 (len : BitVec 16) (sa : Word) :
    Statement (.movememLight1 len sa) := fun op _ => of_dma op _ len sa
theorem movememLight2 (len : BitVec 16) (sa : Word) :
    Statement (.movememLight2 len sa) := fun op _ => of_dma op _ len sa
theorem movememLight3 (len : BitVec 16) (sa : Word) :
    Statement (.movememLight3 len sa) := fun op _ => of_dma op _ len sa
theorem movememLight4 (len : BitVec 16) (sa : Word) :
    Statement (.movememLight4 len sa) := fun op _ => of_dma op _ len sa
theorem movememLight5 (len : BitVec 16) (sa : Word) :
    Statement (.movememLight5 len sa) := fun op _ => of_dma op _ len sa
theorem movememLight6 (len : BitVec 16) (sa : Word) :
    Statement (.movememLight6 len sa) := fun op _ => of_dma op _ len sa
theorem movememLight7 (len : BitVec 16) (sa : Word) :
    Statement (.movememLight7 len sa) := fun op _ => of_dma op _ len sa
theorem movememX (w0 : Word) (w1 : Word) :
    Statement (.movememX w0 w1) := fun _ h => of_forwarded w1 (Bool.and_eq_true_iff.mp h).1
theorem vtx (w0 : Word) (w1 : Word) : Statement (.vtx w0 w1) := fun _ h => of_forwarded w1 h
theorem dl (p : BitVec 8) (len : BitVec 16) (sa : Word) : Statement (.dl p len sa) := fun op _ => of_dma op p len sa
theorem dlcnt (p : BitVec 8) (len : BitVec 16) (sa : Word) :
    Statement (.dlcnt p len sa) := fun op _ => of_dma op p len sa
theorem rdphalf2 : Statement .rdphalf2 := fun op _ => of_raw op
theorem rdphalf1 : Statement .rdphalf1 := fun op _ => of_raw op
theorem line3d (w0 : Word) (w1 : Word) : Statement (.line3d w0 w1) := fun _ h => of_forwarded w1 h
theorem cleargeometrymode (data : Word) : Statement (.cleargeometrymode data) := fun op _ => of_imm op data
theorem setgeometrymode (data : Word) : Statement (.setgeometrymode data) := fun op _ => of_imm op data
theorem enddl : Statement .enddl := fun op _ => of_raw op
theorem setothermodeL (sft : BitVec 8) (len : BitVec 8) (data : Word) :
    Statement (.setothermodeL sft len data) := fun op _ => of_om op sft len data
theorem setothermodeH (sft : BitVec 8) (len : BitVec 8) (data : Word) :
    Statement (.setothermodeH sft len data) := fun op _ => of_om op sft len data
theorem texture (w0 : Word) (w1 : Word) : Statement (.texture w0 w1) := fun _ h => of_forwarded w1 h
theorem movewordSegment (ofs : BitVec 16) (data : Word) :
    Statement (.movewordSegment ofs data) := fun op _ => of_mw op ofs data
theorem movewordX (w0 : Word) (w1 : Word) :
    Statement (.movewordX w0 w1) := fun _ h => of_forwarded w1 (Bool.and_eq_true_iff.mp h).1
theorem popmtx (w0 : Word) (w1 : Word) : Statement (.popmtx w0 w1) := fun _ h => of_forwarded w1 h
theorem culldl (w0 : Word) (w1 : Word) : Statement (.culldl w0 w1) := fun _ h => of_forwarded w1 h
theorem tri1 (w0 : Word) (w1 : Word) : Statement (.tri1 w0 w1) := fun _ h => of_forwarded w1 h
theorem noop : Statement .noop := fun op _ => of_raw op
theorem triRdp (variant : BitVec 3) : Statement (.triRdp variant) := fun op _ => of_raw op
theorem texrect (xh : BitVec 12) (yh : BitVec 12) (tile : BitVec 3) (xl : BitVec 12) (yl : BitVec 12) :
    Statement (.texrect xh yh tile xl yl) := fun op _ => of_trect op xh yh tile xl yl
theorem texrectflip (xh : BitVec 12) (yh : BitVec 12) (tile : BitVec 3) (xl : BitVec 12) (yl : BitVec 12) :
    Statement (.texrectflip xh yh tile xl yl) := fun op _ => of_trect op xh yh tile xl yl
theorem loadsync : Statement .loadsync := fun op _ => of_raw op
theorem pipesync : Statement .pipesync := fun op _ => of_raw op
theorem tilesync : Statement .tilesync := fun op _ => of_raw op
theorem fullsync : Statement .fullsync := fun op _ => of_raw op
theorem setkeygb : Statement .setkeygb := fun op _ => of_raw op
theorem setkeyr : Statement .setkeyr := fun op _ => of_raw op
theorem setconvert : Statement .setconvert := fun op _ => of_raw op
theorem setscissor (ulx : BitVec 12) (uly : BitVec 12) (mode : BitVec 2) (lrx : BitVec 12) (lry : BitVec 12) :
    Statement (.setscissor ulx uly mode lrx lry) := fun op _ => of_scis op ulx uly mode lrx lry
theorem setprimdepth (w0 : Word) (w1 : Word) : Statement (.setprimdepth w0 w1) := fun _ h => of_forwarded w1 h
theorem rdpsetothermode (omh : BitVec 24) (oml : Word) :
    Statement (.rdpsetothermode omh oml) := fun op _ => of_low24 op omh oml
theorem loadtlut (w0 : Word) (w1 : Word) : Statement (.loadtlut w0 w1) := fun _ h => of_forwarded w1 h
theorem settilesize (w0 : Word) (w1 : Word) : Statement (.settilesize w0 w1) := fun _ h => of_forwarded w1 h
theorem loadblock (w0 : Word) (w1 : Word) : Statement (.loadblock w0 w1) := fun _ h => of_forwarded w1 h
theorem loadtile (w0 : Word) (w1 : Word) : Statement (.loadtile w0 w1) := fun _ h => of_forwarded w1 h
theorem settile (w0 : Word) (w1 : Word) : Statement (.settile w0 w1) := fun _ h => of_forwarded w1 h
theorem fillrect (xh : BitVec 12) (yh : BitVec 12) (xl : BitVec 12) (yl : BitVec 12) :
    Statement (.fillrect xh yh xl yl) := fun op _ => of_rect op xh yh xl yl
theorem setfillcolor (data : Word) : Statement (.setfillcolor data) := fun op _ => of_imm op data
theorem setfogcolor (data : Word) : Statement (.setfogcolor data) := fun op _ => of_imm op data
theorem setblendcolor (data : Word) : Statement (.setblendcolor data) := fun op _ => of_imm op data
theorem setprimcolor (m : BitVec 8) (l : BitVec 8) (color : Word) :
    Statement (.setprimcolor m l color) := fun op _ => of_prim op m l color
theorem setenvcolor (data : Word) : Statement (.setenvcolor data) := fun op _ => of_imm op data
theorem setcombine (mux0 : BitVec 24) (mux1 : Word) :
    Statement (.setcombine mux0 mux1) := fun op _ => of_low24 op mux0 mux1
theorem settimg (fmt : BitVec 3) (siz : BitVec 2) (wm1 : BitVec 12) (sa : Word) :
    Statement (.settimg fmt siz wm1 sa) := fun op _ => of_img op fmt siz wm1 sa
theorem setzimg (fmt : BitVec 3) (siz : BitVec 2) (wm1 : BitVec 12) (sa : Word) :
    Statement (.setzimg fmt siz wm1 sa) := fun op _ => of_img op fmt siz wm1 sa
theorem setcimg (fmt : BitVec 3) (siz : BitVec 2) (wm1 : BitVec 12) (sa : Word) :
    Statement (.setcimg fmt siz wm1 sa) := fun op _ => of_img op fmt siz wm1 sa
theorem externCustom (mnemonic : String) (w0 : Word) (w1 : Word) :
    Statement (.externCustom mnemonic w0 w1) := fun _ h => of_forwarded w1 h
theorem unknown (op : BitVec 8) : Statement (.unknown op) := fun op _ => of_raw op

end Sys2Proof.Laws.OpcodeByte
end

