-- ==== Sys2Proof/Tests/Slice0.lean ====
section
/-! SUPPORT. The model's own tests. Every expected result is written out from spec/95_test_vectors.md or from the
rule named; the witnesses show, for each statement with hypotheses, inputs that meet them. -/

namespace Sys2Proof.Tests

open Sys2Proof.Machine

/-! ## Well-formedness: each check accepts and refuses -/

theorem test_wf_forwarded_word_carries_its_opcode :
    (Instr.vtx 0x04F00040 0x01000000).fitsSlot 0x04 = true ∧
    (Instr.vtx 0x05F00040 0x01000000).fitsSlot 0x04 = false ∧
    (Instr.line3d 0xB4000000 0).fitsSlot 0xB5 = false ∧
    (Instr.texture 0xBA000000 0).fitsSlot 0xBB = false ∧
    (Instr.popmtx 0xBC000000 0).fitsSlot 0xBD = false ∧
    (Instr.culldl 0xBF000000 0).fitsSlot 0xBE = false ∧
    (Instr.tri1 0xBE000000 0).fitsSlot 0xBF = false ∧
    (Instr.setprimdepth 0xEF000000 0).fitsSlot 0xEE = false ∧
    (Instr.loadtlut 0xF1000000 0).fitsSlot 0xF0 = false ∧
    (Instr.settilesize 0xF3000000 0).fitsSlot 0xF2 = false ∧
    (Instr.loadblock 0xF2000000 0).fitsSlot 0xF3 = false ∧
    (Instr.loadtile 0xF5000000 0).fitsSlot 0xF4 = false ∧
    (Instr.settile 0xF4000000 0).fitsSlot 0xF5 = false ∧
    (Instr.externCustom "TITLE_VTX" 0x04F00040 0).fitsSlot 0x04 = true ∧
    (Instr.externCustom "TITLE_VTX" 0x05F00040 0).fitsSlot 0x04 = false := by decide

/-- R88: index 6 of MOVEWORD is the segment set, never MOVEWORD_X. -/
theorem test_wf_moveword_x_index :
    (Instr.movewordX 0xBC000002 0).fitsSlot 0xBC = true ∧
    (Instr.movewordX 0xBC000406 0).fitsSlot 0xBC = false ∧
    (Instr.movewordX 0xBB000002 0).fitsSlot 0xBC = false := by decide

/-- R88: the viewport index and the eight light indices are never MOVEMEM_X. -/
theorem test_wf_movemem_x_index :
    (Instr.movememX 0x03820010 0).fitsSlot 0x03 = true ∧
    (Instr.movememX 0x03800010 0).fitsSlot 0x03 = false ∧
    (Instr.movememX 0x03860010 0).fitsSlot 0x03 = false ∧
    (Instr.movememX 0x03940010 0).fitsSlot 0x03 = false ∧
    (Instr.movememX 0x04820010 0).fitsSlot 0x03 = false := by decide

/-- R288: the variant of a native triangle is the low bits of its opcode. -/
theorem test_wf_triangle_variant :
    (Instr.triRdp 2).fitsSlot 0xCA = true ∧ (Instr.triRdp 3).fitsSlot 0xCA = false := by decide

/-- R87: an unbound instruction's opcode is its slot. -/
theorem test_wf_unknown_slot :
    (Instr.unknown 0x02).fitsSlot 0x02 = true ∧ (Instr.unknown 0x02).fitsSlot 0x05 = false := by decide

/-- R86: the slot's handler decides: DLCNT is ill-formed under REF, well-formed under REF+CNT; a bound opcode is not UNKNOWN. -/
theorem test_wf_bound_handler :
    (Instr.dlcnt 3 0 0x2100).wellFormed 0x07 (lookupHandler (buildTable .refCnt) 0x07) = true ∧
    (Instr.dlcnt 3 0 0x2100).wellFormed 0x07 (lookupHandler (buildTable (.stock .ref)) 0x07) = false ∧
    (Instr.unknown 0xB8).wellFormed 0xB8 (lookupHandler (buildTable .refCnt) 0xB8) = false ∧
    Instr.enddl.wellFormed 0xB8 (lookupHandler (buildTable .refCnt) 0xB8) = true := by decide

/-- A title's profile: REF with its own vertex loader in the slot of VTX (40_dispatch_loop.md R113, 47_passthrough.md R290). -/
def titleProfile : CustomProfile := { base := .ref, patches := [(0x04#8, .extern (.custom "TITLE_VTX"))] }

/-- R290: the override handler is well-formed where the profile binds its own mnemonic, and nowhere in REF+CNT. -/
theorem test_wf_override_handler :
    let i : Instr := .externCustom "TITLE_VTX" 0x04F00040 0x01000000
    i.wellFormed 0x04 (lookupHandler (patchedTable titleProfile) 0x04) = true ∧
    (Instr.externCustom "TITLE_TRI" 0x04F00040 0).wellFormed 0x04 (lookupHandler (patchedTable titleProfile) 0x04) = false ∧
    (Instr.vtx 0x04F00040 0).wellFormed 0x04 (lookupHandler (patchedTable titleProfile) 0x04) = false ∧
    i.wellFormedRef = false := by decide

/-! ## Decoding: every constructor's word, written out from 30_encoding.md R82, R86, R88 -/

/-- 0x00 to 0x07: DMA words `op p(8) len(16) sa(32)`; the MOVEMEM indices of R88. -/
theorem test_decode_dma :
    decodeTableWord 64 0x0000000000000000 = some .spnoop ∧
    decodeTableWord 64 0x0103004002000000 = some (.mtx 3 64 0x02000000) ∧
    decodeTableWord 64 0x0380001002000080 = some (.movememViewport 16 0x02000080) ∧
    decodeTableWord 64 0x04F0004001000000 = some (.vtx 0x04F00040 0x01000000) ∧
    decodeTableWord 64 0x06010000_00003100 = some (.dl 1 0 0x3100) ∧
    decodeTableWord 64 0x07FF1234_00002100 = some (.dlcnt 255 0x1234 0x2100) := by decide

theorem test_decode_lights :
    decodeTableWord 64 0x03860010_02000040 = some (.movememLight0 16 0x02000040) ∧
    decodeTableWord 64 0x03880010_02000050 = some (.movememLight1 16 0x02000050) ∧
    decodeTableWord 64 0x038A0010_02000050 = some (.movememLight2 16 0x02000050) ∧
    decodeTableWord 64 0x038C0010_02000050 = some (.movememLight3 16 0x02000050) ∧
    decodeTableWord 64 0x038E0010_02000050 = some (.movememLight4 16 0x02000050) ∧
    decodeTableWord 64 0x03900010_02000050 = some (.movememLight5 16 0x02000050) ∧
    decodeTableWord 64 0x03920010_02000050 = some (.movememLight6 16 0x02000050) ∧
    decodeTableWord 64 0x03940010_02000060 = some (.movememLight7 16 0x02000060) := by decide

/-- An odd index and the index after the last light select no operation (95_test_vectors.md ML9, ML10). -/
theorem test_decode_movemem_x :
    decodeTableWord 64 0x03870010_02000050 = some (.movememX 0x03870010 0x02000050) ∧
    decodeTableWord 64 0x03960010_02000050 = some (.movememX 0x03960010 0x02000050) := by decide

theorem test_decode_low_no_ops :
    decodeTableWord 64 0xB3000000_12345678 = some .rdphalf2 ∧
    decodeTableWord 64 0xB4000000_12345678 = some .rdphalf1 ∧
    decodeTableWord 64 0xB5000000_00000A14 = some (.line3d 0xB5000000 0x00000A14) ∧
    decodeTableWord 64 0xB8000000_00000000 = some .enddl := by decide

theorem test_decode_geometry_and_other_mode :
    decodeTableWord 64 0xB6FFFFFF_00000004 = some (.cleargeometrymode 4) ∧
    decodeTableWord 64 0xB7000000_00020000 = some (.setgeometrymode 0x00020000) ∧
    decodeTableWord 64 0xB9000002_00000003 = some (.setothermodeL 0 2 3) ∧
    decodeTableWord 64 0xBAFF1402_00200000 = some (.setothermodeH 20 2 0x00200000) := by decide

/-- MW: `op ofs(16) idx(8) data(32)`; index 6 is the segment set. -/
theorem test_decode_moveword :
    decodeTableWord 64 0xBC004406_00500000 = some (.movewordSegment 0x0044 0x00500000) ∧
    decodeTableWord 64 0xBC000002_80000040 = some (.movewordX 0xBC000002 0x80000040) := by decide

theorem test_decode_opaque :
    decodeTableWord 64 0xBB000001_FFFFFFFF = some (.texture 0xBB000001 0xFFFFFFFF) ∧
    decodeTableWord 64 0xBD000000_00000000 = some (.popmtx 0xBD000000 0) ∧
    decodeTableWord 64 0xBE000000_0000001E = some (.culldl 0xBE000000 0x1E) ∧
    decodeTableWord 64 0xBF000000_00000A14 = some (.tri1 0xBF000000 0x00000A14) ∧
    decodeTableWord 64 0xEE000000_7FFF0000 = some (.setprimdepth 0xEE000000 0x7FFF0000) := by decide

theorem test_decode_no_ops :
    decodeTableWord 64 0xC0000000_DEADBEEF = some .noop ∧
    decodeTableWord 64 0xCA000000_00000000 = some (.triRdp 2) ∧
    decodeTableWord 64 0xCF123456_789ABCDE = some (.triRdp 7) ∧
    decodeTableWord 64 0xE6000000_00000000 = some .loadsync ∧
    decodeTableWord 64 0xE7000000_00000000 = some .pipesync ∧
    decodeTableWord 64 0xE8000000_00000000 = some .tilesync ∧
    decodeTableWord 64 0xE9000000_00000000 = some .fullsync ∧
    decodeTableWord 64 0xEA000000_00000000 = some .setkeygb ∧
    decodeTableWord 64 0xEB000000_00000000 = some .setkeyr ∧
    decodeTableWord 64 0xEC000000_00000000 = some .setconvert := by decide

/-- TRECT: three 8-byte words, the first `op xh(12) yh(12) -(5) tile(3) xl(12) yl(12)` (95_test_vectors.md RX21, RX20). -/
theorem test_decode_textured_rectangles :
    decodeTableWord 192 0xB3000000_FC00F800_B4000000_FFE0FFC0_E4028028_07000000 = some (.texrect 40 40 7 0 0) ∧
    decodeTableWord 192 0xB3000000_04000800_B4000000_00200040_E5014050_00000000 = some (.texrectflip 20 80 0 0 0) := by
  decide

/-- SCIS `op ulx(12) uly(12) -(6) mode(2) lrx(12) lry(12)`, RECT `op xh(12) yh(12) -(8) xl(12) yl(12)`. -/
theorem test_decode_scissor_and_rectangle :
    decodeTableWord 64 0xED080040_03480380 = some (.setscissor 128 64 3 1152 896) ∧
    decodeTableWord 64 0xF64FC3BC_00028050 = some (.fillrect 1276 956 40 80) := by decide

theorem test_decode_tile :
    decodeTableWord 64 0xF0000000_0703C000 = some (.loadtlut 0xF0000000 0x0703C000) ∧
    decodeTableWord 64 0xF2000000_0007C07C = some (.settilesize 0xF2000000 0x0007C07C) ∧
    decodeTableWord 64 0xF3000000_073FF100 = some (.loadblock 0xF3000000 0x073FF100) ∧
    decodeTableWord 64 0xF4000000_0707C07C = some (.loadtile 0xF4000000 0x0707C07C) ∧
    decodeTableWord 64 0xF5100000_07080200 = some (.settile 0xF5100000 0x07080200) := by decide

theorem test_decode_colors :
    decodeTableWord 64 0xEF300000_12345678 = some (.rdpsetothermode 0x300000 0x12345678) ∧
    decodeTableWord 64 0xF7000000_00010001 = some (.setfillcolor 0x00010001) ∧
    decodeTableWord 64 0xF8000000_99AABBCC = some (.setfogcolor 0x99AABBCC) ∧
    decodeTableWord 64 0xF9000000_000000FF = some (.setblendcolor 0x000000FF) ∧
    decodeTableWord 64 0xFA00FF80_AABBCCDD = some (.setprimcolor 0xFF 0x80 0xAABBCCDD) ∧
    decodeTableWord 64 0xFB000000_55667788 = some (.setenvcolor 0x55667788) ∧
    decodeTableWord 64 0xFC121824_FF33FFFF = some (.setcombine 0x121824 0xFF33FFFF) := by decide

/-- IMG: `op fmt(3) siz(2) -(7) wm1(12) sa(32)` (95_test_vectors.md AD6, AD8, AD9). -/
theorem test_decode_images :
    decodeTableWord 64 0xFD780FFF_00000000 = some (.settimg 3 3 0xFFF 0) ∧
    decodeTableWord 64 0xFE000000_00280000 = some (.setzimg 0 0 0 0x00280000) ∧
    decodeTableWord 64 0xFF10013F_01000000 = some (.setcimg 0 2 319 0x01000000) := by decide

/-- R86: unbound opcodes; 0x07 is one of them under REF. -/
theorem test_decode_unknown :
    decodeTableWord 64 0x05123456_789ABCDE = some (.unknown 0x05) ∧
    decodeTableWord 64 0xF1000000_00000000 = some (.unknown 0xF1) ∧
    decodeDWord (buildTable (.stock .ref)) 0x07030000_00002100#64 = .unknown 0x07 := by decide

/-- R290, R86: the override handler takes the word whole, and every other slot is REF's. -/
theorem test_decode_override_handler :
    decodeDWord (patchedTable titleProfile) 0x04F00040_01000000 = .externCustom "TITLE_VTX" 0x04F00040 0x01000000 ∧
    decodeDWord (patchedTable titleProfile) 0xBF000000_00000A14 = .tri1 0xBF000000 0x00000A14 := by decide

/-- R80: fewer than eight bytes are no instruction. -/
theorem test_decode_truncated :
    decodeBytes (buildTable .refCnt) [0xB8#8, 0, 0, 0, 0, 0, 0] = .error .truncated := by decide

/-- R82: the encoder writes the spec's words. -/
theorem test_encode_words :
    encode (.dlcnt 3 0 0x2100) = 0x07030000_00002100#64 ∧
    encode (.setscissor 128 64 0 1152 896) = 0xED080040_00480380#64 ∧
    encode (.texrect 284 284 0 160 160) = 0xE411C11C_000A00A0#64 ∧
    encodeExtras 0 0 4096 1024 = (0xB4000000_00000000#64, 0xB3000000_10000400#64) ∧
    encode (.setcimg 0 2 319 0x01000000) = 0xFF10013F_01000000#64 := by decide

/-! ## One step of each instruction (95_test_vectors.md) -/

/-- PCACHE under the profile REF+CNT, or under REF (30_encoding.md R86). -/
def cacheOf (pid : ProfileId) : ProfileCache where
  valid := true
  codeBase := 0x00080000
  pid := pid
  table := buildTable pid
  vstride := 16

/-- Guest memory that holds instructions at offsets. -/
def image : List (Nat × DWord) → Memory
  | [] => []
  | (a, w) :: rest => Memory.writeBytes (image rest) a (dwordBytes w)

/-- A Running machine under REF+CNT with one unbounded frame at `a`, and `words` in guest memory. -/
def running (a : Nat) (words : List (Nat × DWord)) : State :=
  { State.reset with
    run := .running
    stack := [{ addr := a, cnt := none }]
    pcache := cacheOf .refCnt
    mem := image words }

/-- The common case: one instruction at 0x1000. -/
def at1000 (w : DWord) : State := running 0x1000 [(0x1000, w)]

/-- The next state, if there is one. -/
def nextOf (s : State) : Option State :=
  match step s with
  | .next t => some t
  | .fault _ => none
  | .refused _ => none

/-- The events of the next state's trace. -/
def eventsOf (s : State) : Option (List Event) := (nextOf s).map fun t => t.trace.map TraceRecord.event

/-- The frames of the next state, the top one first. -/
def framesOf (s : State) : Option (List Frame) := (nextOf s).map State.stack

/-- `s` with other per-frame registers. -/
def withRegs (s : State) (f : Regs → Regs) : State := { s with regs := f s.regs }

/-- `s` with `SEG[n] = v`. -/
def withSeg (s : State) (n : BitVec 4) (v : Word) : State := s.setSegment n v

/-- Nothing changed but pc and ICOUNT. -/
def onlyAdvanced (s : State) : Bool :=
  nextOf s == some { s with stack := [{ addr := 0x1008, cnt := none }], icount := 1 }

/-! ### Addressing and images -/

/-- AD1, AD2. -/
theorem test_moveword_segment_sets_one :
    (nextOf (at1000 0xBC000406_00200000)).map (·.segment 1) = some 0x00200000 ∧
    (nextOf (at1000 0xBC004406_00500000)).map (·.segment 1) = some 0x00500000 := by decide

/-- AD4 and S1: all 32 bits are kept, the translation masks them, bits 31..28 of the address are ignored. -/
theorem test_moveword_segment_keeps_32_bits :
    (nextOf (at1000 0xBC000406_80200000)).map (·.segment 1) = some 0x80200000 ∧
    (nextOf (at1000 0xBC000406_80200000)).map (·.resolve 0x21000010) = some 0x00200010 := by decide

/-- AD5. -/
theorem test_resolve_is_not_reduced : (withSeg State.reset 1 0x00FFFFF0).resolve 0x01FFFFF0 = 0x01FFFFE0 := by decide

/-- AD6, AD9. -/
theorem test_settimg :
    (nextOf (at1000 0xFD10001F_00012340)).map (·.regs.timg) =
      some { fmt := 0, siz := 2, width := 32, addr := 0x12340 } ∧
    (nextOf (at1000 0xFD780FFF_00000000)).map (·.regs.timg) =
      some { fmt := 3, siz := 3, width := 4096, addr := 0 } := by decide

/-- AD7, AD10: past MEM_SIZE, stored without a fault. -/
theorem test_setcimg :
    (nextOf (withSeg (at1000 0xFF10013F_01000000) 1 0x00200000)).map (·.regs.cimg) =
      some { fmt := 0, siz := 2, width := 320, addr := 0x200000 } ∧
    (nextOf (withSeg (at1000 0xFF100000_01FFFFF8) 1 0x00200000)).map (fun t => (t.regs.cimg.addr, t.run)) =
      some (0x11FFFF8, .running) := by decide

/-- AD8. -/
theorem test_setzimg :
    (nextOf (at1000 0xFE000000_00280000)).map (·.regs.zimg) =
      some { fmt := 0, siz := 0, width := 1, addr := 0x280000 } := by decide

/-! ### Control -/

/-- CT1, CT2. -/
theorem test_dl_calls_and_branches :
    framesOf (withSeg (at1000 0x06000000_01000200) 1 0x00100000) =
      some [{ addr := 0x100200, cnt := none }, { addr := 0x1008, cnt := none }] ∧
    framesOf (at1000 0x06010000_00003100) = some [{ addr := 0x3100, cnt := none }] := by decide

/-- CT7: at depth 32 the call is rejected, ERR_OVF set, pc past it. -/
theorem test_dl_at_depth_32 :
    let s : State :=
      { at1000 0x06000000_00005000 with
        stack := { addr := 0x1000, cnt := none } :: List.replicate 31 { addr := 0x5008, cnt := none } }
    (nextOf s).map (fun t => (t.errOvf, t.depth, t.pc)) = some (true, 32, some 0x1008) := by decide

/-- CT8, CT9: a budget of 0 runs nothing, the largest one is 255. -/
theorem test_dlcnt_budget :
    framesOf (at1000 0x07000000_00002100) = some [{ addr := 0x1008, cnt := none }] ∧
    framesOf (at1000 0x07FF0000_00002100) =
      some [{ addr := 0x2100, cnt := some 255 }, { addr := 0x1008, cnt := none }] := by decide

/-- CT3, CT4: a branch keeps the budget that the fetch left. -/
theorem test_branch_keeps_the_budget :
    framesOf { at1000 0x06010000_00003000 with
      stack := [{ addr := 0x1000, cnt := some 1 }, { addr := 0x2008, cnt := none }] } =
      some [{ addr := 0x2008, cnt := none }] ∧
    framesOf { at1000 0x06010000_00003000 with
      stack := [{ addr := 0x1000, cnt := some 2 }, { addr := 0x2008, cnt := none }] } =
      some [{ addr := 0x3000, cnt := some 1 }, { addr := 0x2008, cnt := none }] := by decide

/-- CT5, CT6. -/
theorem test_enddl_pops :
    framesOf { at1000 0xB8000000_00000000 with
      stack := [{ addr := 0x1000, cnt := none }, { addr := 0x2008, cnt := none }] } =
      some [{ addr := 0x2008, cnt := none }] ∧
    framesOf (at1000 0xB8000000_00000000) = some [] := by decide

/-- CT10, CT11: an unbound opcode ends the list, its budget discarded. -/
theorem test_unknown_pops :
    framesOf { at1000 0x02000000_00000000 with
      stack := [{ addr := 0x1000, cnt := some 3 }, { addr := 0x2008, cnt := none }] } =
      some [{ addr := 0x2008, cnt := none }] ∧
    framesOf { at1000 0x05123456_789ABCDE with pcache := cacheOf (.stock .ref) } = some [] := by decide

/-- S5: the word of DLCNT is UNKNOWN under REF. -/
theorem test_dlcnt_is_unbound_under_ref :
    framesOf { at1000 0x07030000_00002100 with pcache := cacheOf (.stock .ref) } = some [] := by decide

/-! ### Tile instructions -/

/-- TL1, TL2. -/
theorem test_settile_and_size :
    eventsOf (at1000 0xF5100000_07080200) = some [.setTile 0xF5100000 0x07080200] ∧
    eventsOf (at1000 0xF2000000_0007C07C) = some [.setTileSize 0xF2000000 0x0007C07C] := by decide

/-- TL3: the snapshot holds TIMG as it is. -/
theorem test_loadtile_snapshot :
    let img : ImageDesc := { fmt := 0, siz := 2, width := 32, addr := 0x12340 }
    (nextOf (withRegs (at1000 0xF4000000_0707C07C) fun r => { r with timg := img })).map
      (fun t => t.trace.map fun e => (e.event, e.snap.timg)) =
      some [(.loadTile 0xF4000000 0x0707C07C, img)] := by decide

/-- TL4, TL5. -/
theorem test_loadblock_and_loadtlut :
    eventsOf (at1000 0xF3000000_073FF100) = some [.loadBlock 0xF3000000 0x073FF100] ∧
    eventsOf (at1000 0xF0000000_0703C000) = some [.loadTlut 0xF0000000 0x0703C000] := by decide

/-! ### Raster state -/

/-- RS1, RS5: accepted, the fraction and the mode dropped. -/
theorem test_setscissor_accepted :
    eventsOf (at1000 0xED000000_005003C3) = some [.scissor 0 0 320 240] ∧
    (nextOf (at1000 0xED000000_03FFFFFF)).map (·.regs.scissor) =
      some { left := 0, top := 0, right := 1023, bottom := 1023 } := by decide

/-- RS3, RS6: rejected, with the title's policy event in RS6. -/
theorem test_setscissor_rejected :
    onlyAdvanced (at1000 0xED001000_00003004) = true ∧
    eventsOf { withRegs (at1000 0xED190190_000C80C8) (fun r => { r with cimg := { r.cimg with addr := 0x200800 } }) with
      input := { noInput with policy := { vpHackAlign := some 0x1000, wholeScreenClear := true } } } =
      some [.viewportFromRegion] := by decide

/-- RS8. -/
theorem test_setfillcolor :
    (nextOf (at1000 0xF7000000_00010001)).map (fun t => (t.regs.fill, t.trace)) = some (0x00010001, []) := by decide

/-- RS10, RS13: only the bits under the mask. -/
theorem test_setothermode_h :
    (nextOf (withRegs (at1000 0xBA001402_00000000) fun r => { r with omh := 0x00300000 })).map (·.regs.omh) = some 0 ∧
    (nextOf (at1000 0xBA001E04_FFFFFFFF)).map (·.regs.omh) = some 0xC0000000 := by decide

/-- RS12: a shift of 32 leaves the register. -/
theorem test_setothermode_h_shift_32 :
    (nextOf (withRegs (at1000 0xBA002008_FFFFFFFF) fun r => { r with omh := 0x12345678 })).map (·.regs.omh) =
      some 0x12345678 := by decide

/-- RS15. -/
theorem test_setothermode_l :
    (nextOf (at1000 0xB9000002_00000003)).map (fun t => (t.regs.oml, t.regs.omh)) = some (3, 0) := by decide

/-- RS16. -/
theorem test_rdpsetothermode :
    (nextOf (withRegs (at1000 0xEF300000_12345678) fun r => { r with omh := 0xFF000000 })).map
      (fun t => (t.regs.omh, t.regs.oml)) = some (0x00300000, 0x12345678) := by decide

/-- RS17, RS18. -/
theorem test_geometry_mode :
    (nextOf (withRegs (at1000 0xB7000000_00020000) fun r => { r with geom := 4 })).map (·.regs.geom) =
      some 0x00020004 ∧
    (nextOf (withRegs (at1000 0xB6000000_00000004) fun r => { r with geom := 0x00020004 })).map (·.regs.geom) =
      some 0x00020000 := by decide

/-- RS20. -/
theorem test_setcombine :
    (nextOf (at1000 0xFC121824_FF33FFFF)).map (fun t => (t.regs.combine, t.trace.map (·.event))) =
      some ({ mux0 := 0x121824, mux1 := 0xFF33FFFF }, [.combine 0x121824 0xFF33FFFF]) := by decide

/-- RS21. -/
theorem test_setprimcolor :
    (nextOf (at1000 0xFA00FF80_AABBCCDD)).map (fun t => (t.regs.prim, t.trace.map (·.event))) =
      some ({ color := 0xAABBCCDD, m := 0xFF, l := 0x80 }, [.prim 0xAABBCCDD 0xFF 0x80]) := by decide

/-- RS22, RS23, RS24. -/
theorem test_constant_colors :
    (nextOf (at1000 0xFB000000_55667788)).map (fun t => (t.regs.env, t.trace.map (·.event))) =
      some (0x55667788, [.env 0x55667788]) ∧
    (nextOf (at1000 0xF8000000_99AABBCC)).map (fun t => (t.regs.fog, t.trace.map (·.event))) =
      some (0x99AABBCC, [.fog 0x99AABBCC]) ∧
    (nextOf (at1000 0xF9000000_000000FF)).map (fun t => (t.regs.blend, t.trace.map (·.event))) =
      some (0x000000FF, [.blend 0x000000FF]) := by decide

/-! ### Rectangles -/

/-- The base registers of 95_test_vectors.md section 2.5, in the cycle type that `omh` names. -/
def rectBase (omh : Word) (r : Regs) : Regs :=
  { r with
    cimg := { fmt := 0, siz := 2, width := 320, addr := 0x200000 }
    zimg := { fmt := 0, siz := 0, width := 1, addr := 0x280000 }
    scissor := { left := 0, top := 0, right := 320, bottom := 240 }
    fill := 0x00010001
    omh := omh }

/-- A filled rectangle's step from the base registers. -/
def fillFrom (omh : Word) (w : DWord) : State := withRegs (at1000 w) (rectBase omh)

/-- The scissor of vectors RX12 to RX14. -/
def inset (s : State) : State :=
  withRegs s fun r => { r with scissor := { left := 32, top := 16, right := 288, bottom := 224 } }

/-- S6: FILL, 1CYC and COPY. -/
theorem test_fillrect_edges :
    eventsOf (fillFrom 0x00300000 0xF6190190_00000000) = some [.fillRect { x0 := 0, y0 := 0, x1 := 101, y1 := 101 } 0x00010001] ∧
    eventsOf (fillFrom 0 0xF6190190_00000000) = some [.fillRect { x0 := 0, y0 := 0, x1 := 100, y1 := 100 } 0x00010001] ∧
    eventsOf (fillFrom 0x00200000 0xF6190190_00000000) = some [.fillRect { x0 := 0, y0 := 0, x1 := 101, y1 := 101 } 0x00010001] := by
  decide

/-- RX1, RX2, RX3: the whole-framebuffer clear, of color or of depth, and only in FILL. -/
theorem test_fillrect_clears :
    eventsOf (fillFrom 0x00300000 0xF64FC3BC_00000000) = some [.clearColor 0x00010001] ∧
    eventsOf (withRegs (fillFrom 0x00300000 0xF64FC3BC_00000000) fun r => { r with zimg := { r.zimg with addr := 0x200000 } }) =
      some [.clearDepth] ∧
    eventsOf (fillFrom 0x00200000 0xF64FC3BC_00000000) =
      some [.fillRect { x0 := 0, y0 := 0, x1 := 320, y1 := 240 } 0x00010001] := by decide

/-- RX9, RX10, RX12, RX13, RX18: the format test, the degenerate test, the scissor test and its edge, a quarter pixel. -/
theorem test_fillrect_gate :
    eventsOf (withRegs (fillFrom 0x00300000 0xF64FC3BC_00000000) fun r => { r with cimg := { r.cimg with siz := 3 } }) = some [] ∧
    eventsOf (fillFrom 0 0xF6028050_00028050) = some [] ∧
    eventsOf (inset (fillFrom 0 0xF6500028_0049C000)) = some [] ∧
    eventsOf (inset (fillFrom 0 0xF6500380_00480040)) =
      some [.fillRect { x0 := 288, y0 := 16, x1 := 320, y1 := 224 } 0x00010001] ∧
    eventsOf (fillFrom 0 0xF603C051_00028050) =
      some [.fillRect { x0 := 10, y0 := 20, x1 := 15, y1 := mkRat 81 4 } 0x00010001] := by decide

/-- A textured rectangle and its two extra words at 0x1000. -/
def texFrom (omh : Word) (w e1 e2 : DWord) : State :=
  withRegs (running 0x1000 [(0x1000, w), (0x1008, e1), (0x1010, e2)]) (rectBase omh)

/-- S7 in COPY, and RX21: signed operands. -/
theorem test_texrect :
    eventsOf (texFrom 0x00200000 0xE4028028_00000000 0xB4000000_00000000 0xB3000000_04000400) =
      some [.texRect 0 { x0 := 0, y0 := 0, x1 := 11, y1 := 11 } { s := 0, t := 0, dsdx := mkRat 1 4, dtdy := 1 }] ∧
    eventsOf (texFrom 0 0xE4028028_07000000 0xB4000000_FFE0FFC0 0xB3000000_FC00F800) =
      some [.texRect 7 { x0 := 0, y0 := 0, x1 := 10, y1 := 10 } { s := -1, t := -2, dsdx := -1, dtdy := -2 }] := by decide

/-- RX22: skipped, the extra words still consumed; RX23: the second one out of range, the advance past the first kept. -/
theorem test_texrect_skipped_and_faulting :
    (nextOf (inset (texFrom 0x00200000 0xE403C11C_000000A0 0xB4000000_00000000 0xB3000000_04000400))).map
      (fun t => (t.pc, t.trace)) = some (some 0x1018, []) ∧
    (nextOf (running 0x3FFFF0 [(0x3FFFF0, 0xE4028028_00000000)])).map (fun t => (t.pc, t.trace, t.run, t.icount)) =
      some (some 0x400000, [], .faulted { code := .range, info := 0x400000 }, 1) := by decide

/-- RX20, and CT16: an extra fetch takes nothing from the budget, and the frame is popped after the handler. -/
theorem test_texrectflip :
    eventsOf (texFrom 0 0xE5014050_00000000 0xB4000000_00200040 0xB3000000_04000800) =
      some [.texRectFlip 0 { x0 := 0, y0 := 0, x1 := 5, y1 := 20 } { s := 1, t := 2, dsdx := 1, dtdy := 2 }] ∧
    framesOf { texFrom 0 0xE5014050_00000000 0xB4000000_00200040 0xB3000000_04000800 with
      stack := [{ addr := 0x1000, cnt := some 1 }, { addr := 0x2008, cnt := none }] } =
      some [{ addr := 0x2008, cnt := none }] := by decide

/-! ### Matrix, light and viewport loads -/

/-- An instruction at 0x1000 and a record at 0x300000, with `SEG[2] = 0x00300000`. -/
def recordAt (w : DWord) (record : List Byte) : State :=
  let s := withSeg (at1000 w) 2 0x00300000
  { s with mem := Memory.writeBytes s.mem 0x300000 record }

/-- The matrix record of program P4. -/
def p4Matrix : List Byte :=
  [0x00, 0x01, 0x00, 0x01, 0x00, 0x00, 0x00, 0x00, 0x00, 0x00, 0x00, 0x01, 0x00, 0x00, 0x00, 0x00] ++
  [0x00, 0x00, 0x00, 0x00, 0x00, 0x01, 0x00, 0x00, 0x00, 0x00, 0x00, 0x00, 0xFF, 0xFF, 0x00, 0x01] ++
  [0x00, 0x00, 0x80, 0x00, 0x00, 0x00, 0x00, 0x00, 0x00, 0x00, 0x00, 0x00, 0x00, 0x00, 0x00, 0x00] ++
  [0x00, 0x00, 0x00, 0x00, 0x00, 0x00, 0x00, 0x00, 0x00, 0x00, 0x00, 0x00, 0x80, 0x00, 0x00, 0x00]

/-- ML1; ML3 ignores the length. -/
theorem test_mtx :
    eventsOf (recordAt 0x01030000_02000000 p4Matrix) =
      some [.matrix 3 #v[#v[1, mkRat 3 2, 0, 0], #v[0, 1, 0, 0], #v[0, 0, 1, 0], #v[0, 0, mkRat (-1) 2, 1]]] := by decide

/-- ML4, ML6: alignment, then range; no event. -/
theorem test_mtx_faults :
    (nextOf (recordAt 0x01030040_02000004 [])).map (fun t => (t.run, t.trace, t.pc)) =
      some (.faulted { code := .align, info := 0x300004 }, [], some 0x1008) ∧
    (nextOf (withSeg (at1000 0x01030040_0E000000) 14 0x00FFFFF8)).map (·.run) =
      some (.faulted { code := .range, info := 0xFFFFF8 }) := by decide

/-- ML8, as each of the eight lights. -/
theorem test_lights_with_direction :
    let record : List Byte := [0x20, 0x20, 0x20, 0, 0x20, 0x20, 0x20, 0, 0, 0, 0x7F, 0, 0, 0, 0, 0]
    let events := fun n : Fin 8 => some [Event.lightColor n 32 32 32, Event.lightDir n 0 0 127]
    eventsOf (recordAt 0x03860010_02000000 record) = events 0 ∧
    eventsOf (recordAt 0x03880010_02000000 record) = events 1 ∧
    eventsOf (recordAt 0x038A0010_02000000 record) = events 2 ∧
    eventsOf (recordAt 0x038C0010_02000000 record) = events 3 ∧
    eventsOf (recordAt 0x038E0010_02000000 record) = events 4 ∧
    eventsOf (recordAt 0x03900010_02000000 record) = events 5 ∧
    eventsOf (recordAt 0x03920010_02000000 record) = events 6 ∧
    eventsOf (recordAt 0x03940010_02000000 record) = events 7 := by decide

/-- S10: the sentinel, and a signed direction. -/
theorem test_light_sentinel_and_sign :
    eventsOf (recordAt 0x03860010_02000000 [0xFF, 0x80, 0, 0, 0xFF, 0x80, 0, 0]) =
      some [.lightColor 0 255 128 0] ∧
    eventsOf (recordAt 0x03860010_02000000 [0, 0, 0, 0, 0, 0, 0, 0, 0x81, 0xFF, 0, 0, 0, 0, 0, 0]) =
      some [.lightColor 0 0 0 0, .lightDir 0 (-127) (-1) 0] := by decide

/-- ML11, ML12. -/
theorem test_viewport :
    eventsOf (recordAt 0x03800010_02000000
      [0x02, 0x80, 0x01, 0xE0, 0x01, 0xFF, 0, 0, 0x02, 0x80, 0x01, 0xE0, 0x01, 0xFF, 0, 0]) =
      some [.viewport 0x028001E001FF0000028001E001FF0000] ∧
    (nextOf (recordAt 0x03800010_0200FFFC [])).map (·.run) =
      some (.faulted { code := .align, info := 0x30FFFC }) := by decide

/-! ### No-ops and pass-through -/

/-- NP1 to NP6, RS25. -/
theorem test_no_ops :
    onlyAdvanced (at1000 0x00000000_00000000) = true ∧ onlyAdvanced (at1000 0xC0000000_DEADBEEF) = true ∧
    onlyAdvanced (at1000 0xB4000000_12345678) = true ∧ onlyAdvanced (at1000 0xB3000000_12345678) = true ∧
    onlyAdvanced (at1000 0xE6000000_00000000) = true ∧ onlyAdvanced (at1000 0xE7000000_00000000) = true ∧
    onlyAdvanced (at1000 0xE8000000_00000000) = true ∧ onlyAdvanced (at1000 0xE9000000_00000000) = true ∧
    onlyAdvanced (at1000 0xCF123456_789ABCDE) = true ∧ onlyAdvanced (at1000 0xEB000000_00000000) = true ∧
    onlyAdvanced (at1000 0xEA000000_00000000) = true ∧ onlyAdvanced (at1000 0xEC000000_00000000) = true := by decide

/-- NP7 to NP15: the two halves, unresolved. -/
theorem test_opaque_events :
    eventsOf (at1000 0x04F00040_01000000) = some [.extern .vtx 0x04F00040 0x01000000] ∧
    eventsOf (at1000 0xB5000000_00000A14) = some [.extern .line3d 0xB5000000 0x00000A14] ∧
    eventsOf (at1000 0xBB000001_FFFFFFFF) = some [.extern .texture 0xBB000001 0xFFFFFFFF] ∧
    eventsOf (at1000 0xBD000000_00000000) = some [.extern .popmtx 0xBD000000 0] ∧
    eventsOf (at1000 0xBE000000_0000001E) = some [.extern .culldl 0xBE000000 0x1E] ∧
    eventsOf (at1000 0xBF000000_00000A14) = some [.extern .tri1 0xBF000000 0x00000A14] ∧
    eventsOf (at1000 0xBC000002_80000040) = some [.extern .movewordX 0xBC000002 0x80000040] ∧
    eventsOf (at1000 0x03820010_02000000) = some [.extern .movememX 0x03820010 0x02000000] ∧
    eventsOf (at1000 0xEE000000_7FFF0000) = some [.extern .setprimdepth 0xEE000000 0x7FFF0000] := by decide

/-- R290: one event under the override handler's own mnemonic, and nothing else changes but pc and ICOUNT. -/
theorem test_override_handler_event :
    let s : State :=
      { at1000 0x04F00040_01000000 with pcache := { cacheOf .refCnt with table := patchedTable titleProfile } }
    nextOf s = some { s with
      stack := [{ addr := 0x1008, cnt := none }]
      icount := 1
      trace := [{ event := .extern (.custom "TITLE_VTX") 0x04F00040 0x01000000, snap := s.regs }] } := by decide

/-! ### The frame and the host -/

/-- A machine with one move of the host pending, nothing else done. -/
def withMove (s : State) (move : HostMove) : State := { s with host := [move] }

/-- The inputs of a Process that starts at `dlStart`, with the task fields of 95_test_vectors.md section 3. -/
def inputAt (dlStart : Word) (available : Bool) : FrameInput :=
  { noInput with
    task := { codeBase := 0x00080000, codeSize := 0x1000, dataBase := 0x00081000, dataSize := 0x800, dlStart := dlStart, stackHint := 0x12 }
    rendererAvailable := available }

/-- DETECT returning REF, as the vectors assume. -/
def refReset : State := { State.reset with cfg := { refConfig with detection := .constant (.stock .ref) } }

/-- DP1, DP2. -/
theorem test_process_start :
    eventsOf (withMove refReset (.startProcess (inputAt 0x01001000 true))) = some [.mtxReset 0x12, .sceneBegin] ∧
    framesOf (withMove refReset (.startProcess (inputAt 0x01001000 true))) = some [{ addr := 0x001000, cnt := none }] ∧
    (nextOf (withMove refReset (.startProcess (inputAt 0x01001000 false)))).map
      (fun t => (t.trace.map (·.event), t.run, t.depth, t.pcache.valid)) = some ([.irqDone], .done, 0, false) := by decide

/-- DP3, DP4, CT14. -/
theorem test_fetch_bounds :
    (nextOf (running 0x1004 [])).map (fun t => (t.run, t.icount)) =
      some (.faulted { code := .align, info := 0x1004 }, 0) ∧
    (nextOf (running 0x400000 [])).map (fun t => (t.run, t.icount)) =
      some (.faulted { code := .range, info := 0x400000 }, 0) ∧
    (nextOf (running 0x3FFFF8 [])).map (fun t => (t.run, t.icount)) = some (.running, 1) := by decide

/-- DP5. -/
theorem test_ceiling_zero :
    let s : State := { at1000 0 with input := { noInput with maxDispatch := some 0 } }
    (nextOf s).map (fun t => (t.run, t.depth, t.icount, t.trace.map (·.event))) =
      some (.done, 1, 0, [.sceneEnd, .irqDone]) := by decide

/-- DP7: in Faulted no Process starts. -/
theorem test_faulted_refuses_a_process :
    step (withMove { State.reset with run := .faulted { code := .align, info := 4 } } (.startProcess (inputAt 0 true))) =
      .fault (.halted { code := .align, info := 4 }) := rfl

/-- The word the host places runs as the very next instruction (log 13). -/
theorem test_with_fetch_word :
    eventsOf (State.reset.withFetchWord 64 0xF5100000_07080200) = some [.setTile 0xF5100000 0x07080200] ∧
    (nextOf (State.reset.withFetchWord 192 0xE4028028_00000000)).map (·.pc) = some (some 24) := by decide

/-! ## Witnesses: for each statement with hypotheses, inputs that meet them, one for each clause -/

/-! ### Encoding and profiles -/

/-- For DecodeOfEncodeIsTheInstruction and DecodeOfEncodedBytesIsTheInstruction. -/
theorem witness_well_formed :
    (Instr.dlcnt 255 0xFFFF 0xFFFFFFFF).wellFormed 0x07 (lookupHandler (buildTable .refCnt) 0x07) = true ∧
    (Instr.movememX 0x03FF0000 1).wellFormed 0x03 (lookupHandler (buildTable (.stock .ref)) 0x03) = true ∧
    (Instr.triRdp 7).wellFormedRef = true ∧ (Instr.movewordX 0xBC000007 0).wellFormedRef = true ∧
    (Instr.unknown 0xF1).wellFormedRef = true := by decide

/-- Two different words with the same opcode that agree on the bits the format names, under REF+CNT. -/
def differInIgnoredBits (w v : DWord) : Bool :=
  let mask := (lookupHandler (buildTable .refCnt) (opcodeOf w)).namedBits
  w != v && opcodeOf w == opcodeOf v && w &&& mask == v &&& mask

/-- For IgnoredBitsHaveNoInfluence: for each format that ignores bits, two words that differ in all of these bits;
a named bit that differs is refused. -/
theorem witness_ignored_bits :
    differInIgnoredBits 0xBA001402_00200000 0xBAFF1402_00200000 = true ∧
    differInIgnoredBits 0xF7000000_00010001 0xF7FFFFFF_00010001 = true ∧
    differInIgnoredBits 0xFF10013F_01000000 0xFF17F13F_01000000 = true ∧
    differInIgnoredBits 0xFA00FF80_AABBCCDD 0xFAFFFF80_AABBCCDD = true ∧
    differInIgnoredBits 0xED080040_03480380 0xED080040_FF480380 = true ∧
    differInIgnoredBits 0xF64FC3BC_00028050 0xF64FC3BC_FF028050 = true ∧
    differInIgnoredBits 0xE411C11C_000A00A0 0xE411C11C_F80A00A0 = true ∧
    differInIgnoredBits 0xC0000000_00000000 0xC0FFFFFF_FFFFFFFF = true ∧
    differInIgnoredBits 0xFF10013F_01000000 0xFF10013E_01000000 = false := by decide

/-- For OpaqueInstructionsForwardTheWord: a slot that holds an override handler under its own mnemonic. -/
theorem witness_override_handler :
    lookupHandler (patchedTable titleProfile) ((0x04F00040 : Word).extractLsb' 24 8) = .extern (.custom "TITLE_VTX") := by
  decide

/-- For the encodings of the instruction statements (`ReadsAs` and the sub-decoded words). -/
theorem witness_opcode_bytes :
    (0xF7000000 : Word).extractLsb' 24 8 = 0xF7 ∧
    ((0xBC000406 : Word).extractLsb' 24 8 = 0xBC ∧ (0xBC000406 : Word).extractLsb' 0 8 = 0x06) ∧
    ((0xBC000007 : Word).extractLsb' 24 8 = 0xBC ∧ (0xBC000007 : Word).extractLsb' 0 8 ≠ 0x06) ∧
    ((0x03860010 : Word).extractLsb' 24 8 = 0x03 ∧ ((0x03860010 : Word).extractLsb' 16 8).toNat = 0x86 + 2 * 0) ∧
    ((0x03940010 : Word).extractLsb' 16 8).toNat = 0x86 + 2 * 7 ∧
    (0x03800010 : Word).extractLsb' 16 8 = 0x80 ∧ (0x03960010 : Word).extractLsb' 16 8 ∉ movememIndices ∧
    lookupHandler (buildTable (.stock .ref)) (opcodeOf 0x07030000_00002100) = .unknown := by decide

/-- For CustomProfileIsItsBaseOutsideThePatches: both clauses. -/
theorem witness_custom_profile :
    (∀ e ∈ refCntProfile.patches, e.1 ≠ 0x06#8) ∧
    (refCntProfile.patches.map Prod.fst).Nodup ∧ (0x07#8, Handler.dlcnt) ∈ refCntProfile.patches := by decide

/-! ### Memory -/

/-- For MemReadIsBigEndianOrRangeFault: the last byte inside, and one byte too far. -/
theorem witness_mem_read :
    0x3FFFFC + 4 ≤ State.reset.cfg.memSize ∧ State.reset.cfg.memSize < 0x3FFFFD + 4 ∧
    State.reset.memRead 0x3FFFFF 1 = .ok 0 ∧ State.reset.memRead 0x3FFFFE 2 = .ok 0 := ⟨by decide, by decide, rfl, rfl⟩

/-- For SegmentSlotsAreIndependent: an address in another segment, and one in the written segment. -/
theorem witness_segment_slots :
    (0x01000010 : Word).extractLsb' 24 4 ≠ 2#4 ∧ (0xF2000010 : Word).extractLsb' 24 4 = 2#4 := by decide

/-- For StepKeepsMemoryCanonical. -/
theorem witness_memory_step :
    Memory.wf (at1000 0xB8000000_00000000).mem = true ∧ (nextOf (at1000 0xB8000000_00000000)).isSome = true := by decide

/-- For HostWriteBetweenProcessesIsReadBack: up to the last byte of memory, and after a Process. -/
theorem witness_host_write :
    let bytes : List Byte := [1, 2, 3, 4]
    let s : State := withMove State.reset (.writeMemory 0x3FFFFC bytes)
    s.run = .idle ∧ s.host = [.writeMemory 0x3FFFFC bytes] ∧ 0x3FFFFC + bytes.length ≤ s.cfg.memSize ∧
    Memory.wf s.mem = true ∧ ({ s with run := .done } : State).run = .done := by decide

/-! ### The dispatch step -/

/-- The frame `running` starts from. -/
def topAt (a : Nat) : Frame := { addr := a, cnt := none }

/-- The premise `Fetches`, at an address inside memory and at the last one. -/
theorem witness_fetches :
    (at1000 0xB8000000_00000000).Fetches (topAt 0x1000) [] ∧ (running 0x3FFFF8 []).Fetches (topAt 0x3FFFF8) [] :=
  ⟨⟨rfl, rfl, rfl, by decide, by decide⟩, ⟨rfl, rfl, rfl, by decide, by decide⟩⟩

/-- For StepRunsTheDecodedInstruction: a handler that goes on Running, and one that faults. -/
theorem witness_step_runs :
    (at1000 0xC0000000_00000000).instrAt 0x1000 = some .noop ∧
    (∃ u, exec .noop ((at1000 0xC0000000_00000000).seenByHandler (topAt 0x1000) []) = .next u ∧ u.run = .running) ∧
    (at1000 0x01000000_00000004).instrAt 0x1000 = some (.mtx 0 0 4) ∧
    (∃ u, exec (.mtx 0 0 4) ((at1000 0x01000000_00000004).seenByHandler (topAt 0x1000) []) = .next u ∧
      u.run ≠ .running) :=
  ⟨by decide, ⟨_, rfl, rfl⟩, by decide, ⟨_, rfl, by decide⟩⟩

/-- For FetchFaultsLeaveTheFrame: a misaligned address, which is also out of range, and the first aligned one out of range. -/
theorem witness_fetch_faults :
    let s := running 0x400004 []
    let u := running 0x400000 []
    (s.run = .running ∧ s.stack = [topAt 0x400004] ∧ s.ceilingReached = false ∧ (topAt 0x400004).addr % 8 ≠ 0) ∧
    (u.run = .running ∧ u.stack = [topAt 0x400000] ∧ u.ceilingReached = false ∧ (topAt 0x400000).addr % 8 = 0 ∧
      u.cfg.memSize < (topAt 0x400000).addr + 8) := by decide

/-- For DrainedOrCutOffProcessFinishes: an empty stack, and a ceiling just reached at depth 1. -/
theorem witness_finish :
    let s : State := { running 0x1000 [] with stack := [] }
    let u : State := { running 0x1000 [] with input := { noInput with maxDispatch := some 5 }, icount := 5 }
    (s.run = .running ∧ s.stack = []) ∧ (u.run = .running ∧ u.input.maxDispatch = some 5 ∧ 5 ≤ u.icount) := by decide

/-- For ExhaustedFramesArePopped: two exhausted frames on a third. -/
theorem witness_exhausted :
    let u : State :=
      { running 0x1000 [] with
        stack := [{ addr := 0x10, cnt := some 0 }, { addr := 0x20, cnt := some 0 }, { addr := 0x30, cnt := some 1 }] }
    u.run = .running ∧ dropExhausted u.stack = [{ addr := 0x30, cnt := some 1 }] := by decide

/-- A no-op at 0x1000 in a frame with budget `c + 1`. -/
def counted (c : Nat) : State :=
  { at1000 0xC0000000_00000000 with stack := [{ addr := 0x1000, cnt := some (c + 1) }, { addr := 0x2008, cnt := none }] }

/-- For CountedFrameLosesOnePerDispatch: the last dispatch of a budget, and one before it. -/
theorem witness_counted (c : Nat) :
    (counted c).Fetches { addr := 0x1000, cnt := some (c + 1) } [{ addr := 0x2008, cnt := none }] ∧
    (counted c).instrAt 0x1000 = some .noop ∧
    ∃ u, exec .noop ((counted c).seenByHandler { addr := 0x1000, cnt := some (c + 1) } [{ addr := 0x2008, cnt := none }]) =
      .next u ∧ u.run = .running ∧
      u.stack = ((counted c).seenByHandler { addr := 0x1000, cnt := some (c + 1) } [{ addr := 0x2008, cnt := none }]).stack :=
  ⟨⟨rfl, rfl, rfl, by show 0x1000 % 8 = 0; decide, by show 0x1000 + 8 ≤ 0x400000; decide⟩, by show (at1000 0xC0000000_00000000).instrAt 0x1000 = _; decide,
    ⟨_, rfl, rfl, rfl⟩⟩

/-- A bounded call at 0x2000 whose target holds two no-ops. -/
def boundedCall (w : DWord) : State := running 0x2000 [(0x2000, w), (0x2100, 0xC0000000_00000000), (0x2108, 0xE7000000_00000000)]

/-- For BoundedCallRunsExactlyN: a budget of 2, its body accepted no-ops. -/
theorem witness_bounded_call :
    let s := boundedCall 0x07020000_00002100
    s.Fetches (topAt 0x2000) [] ∧ s.input.maxDispatch = none ∧ s.depth < stackMax ∧
    s.instrAt 0x2000 = some (.dlcnt 2 0 0x2100) ∧ s.resolve 0x2100 % 8 = 0 ∧
    s.resolve 0x2100 + 8 * (2#8).toNat ≤ s.cfg.memSize ∧
    (∀ k < (2#8).toNat, ∃ i, s.instrAt (s.resolve 0x2100 + 8 * k) = some i ∧ i.isNoOp = true) := by
  refine ⟨⟨rfl, rfl, rfl, by decide, by decide⟩, rfl, by decide, by decide, by decide, by decide, ?_⟩
  intro k hk
  match k, hk with
  | 0, _ => exact ⟨.noop, by decide, rfl⟩
  | 1, _ => exact ⟨.pipesync, by decide, rfl⟩

/-- For BoundedCallRunsExactlyN: a body that writes a register and a segment, and draws. -/
theorem witness_straight_line_body :
    let s := running 0x2000
      [(0x2000, 0x07030000_00002100), (0x2100, 0xF7000000_00010001), (0x2108, 0xBC000406_00200000),
       (0x2110, 0xF6190190_00000000)]
    s.Fetches (topAt 0x2000) [] ∧ s.instrAt 0x2000 = some (.dlcnt 3 0 0x2100) ∧
    (∀ k < (3#8).toNat, ∃ i, s.instrAt (s.resolve 0x2100 + 8 * k) = some i ∧ i.isStraightLine = true) := by
  refine ⟨⟨rfl, rfl, rfl, by decide, by decide⟩, by decide, ?_⟩
  intro k hk
  match k, hk with
  | 0, _ => exact ⟨.setfillcolor 0x00010001, by decide, rfl⟩
  | 1, _ => exact ⟨.movewordSegment 4 0x00200000, by decide, rfl⟩
  | 2, _ => exact ⟨.fillrect 400 400 0 0, by decide, rfl⟩

/-- For BoundedCallRunsExactlyN: a budget of 0, whose target need not exist. -/
theorem witness_bounded_call_of_zero :
    let s := boundedCall 0x07000000_00400000
    s.Fetches (topAt 0x2000) [] ∧ s.instrAt 0x2000 = some (.dlcnt 0 0 0x400000) ∧
    s.resolve 0x400000 % 8 = 0 ∧ s.resolve 0x400000 + 8 * (0#8).toNat ≤ s.cfg.memSize :=
  ⟨⟨rfl, rfl, rfl, by decide, by decide⟩, by decide, by decide, by decide⟩

/-- Program P6, with and without a ceiling: for SelfBranchRunsForEver and CeilingCutsOffASelfBranch. -/
theorem witness_self_branch :
    let s := running 0x6000 [(0x6000, 0x06010000_00006000)]
    let u : State := { s with input := { noInput with maxDispatch := some (s.icount + 5) } }
    s.Fetches (topAt 0x6000) [] ∧ s.input.maxDispatch = none ∧ s.instrAt 0x6000 = some (.dl 1 0 0x6000) ∧
    s.resolve 0x6000 = (topAt 0x6000).addr ∧
    u.run = .running ∧ u.stack = [topAt 0x6000] ∧ u.input.maxDispatch = some (u.icount + 5) ∧
    u.instrAt 0x6000 = some (.dl 1 0 0x6000) :=
  ⟨⟨rfl, rfl, rfl, by decide, by decide⟩, rfl, by decide, by decide, rfl, rfl, rfl, by decide⟩

/-! ### Process, host and reset -/

/-- For ProcessStart: available and unavailable; the cache invalid, valid for the same code base, valid for another one. -/
theorem witness_process_start :
    let move := HostMove.startProcess (inputAt 0x1000 true)
    let hit : State := { withMove State.reset move with run := .done, pcache := cacheOf (.stock .ref) }
    let other : State := { hit with pcache := { hit.pcache with codeBase := 0x00090000 } }
    ((withMove State.reset move).run = .idle ∧ (withMove State.reset move).host = [move] ∧
      (withMove State.reset move).pcache.valid = false) ∧
    (hit.run = .done ∧ hit.host = [move] ∧ hit.pcache.valid = true ∧
      hit.pcache.codeBase = (inputAt 0x1000 true).task.codeBase) ∧
    other.pcache.codeBase ≠ (inputAt 0x1000 true).task.codeBase ∧
    (inputAt 0x1000 false).rendererAvailable = false := by decide

/-- For PowerOnIsTheWayOutOfAFault: between Processes and after a fault. -/
theorem witness_power_on :
    let s := withMove State.reset .powerOn
    let u : State := { s with run := .faulted { code := .range, info := 0x400000 } }
    s.run ≠ .running ∧ s.host = [.powerOn] ∧ u.run ≠ .running ∧ u.host = [.powerOn] := by decide

/-- For FaultedIsTerminal: no move pending, and a Process pending. -/
theorem witness_faulted :
    let s : State := { State.reset with run := .faulted { code := .align, info := 4 } }
    s.run = .faulted { code := .align, info := 4 } ∧ (∀ move ∈ s.host.head?, move ≠ .powerOn) ∧
    ∀ move ∈ (withMove s (.startProcess noInput)).host.head?, move ≠ .powerOn := by decide

/-- For NothingHappensUntilTheHostMoves. -/
theorem witness_idle :
    State.reset.run = .idle ∧ State.reset.host = [] ∧ ({ State.reset with run := .done } : State).run = .done := by decide

/-! ### Invariants and whole-machine rules -/

/-- For the three invariants: a Running machine that meets them and has a next state. -/
theorem witness_invariants :
    (at1000 0xB8000000_00000000).StackInv ∧
    (at1000 0xB8000000_00000000).regs.InRange (at1000 0xB8000000_00000000).cfg.scissorReset ∧
    (at1000 0xB8000000_00000000).SignalInv ∧ (nextOf (at1000 0xB8000000_00000000)).isSome = true := by
  refine ⟨⟨by decide, fun _ => by decide⟩, ⟨⟨by decide, by decide⟩, ⟨by decide, by decide⟩, ⟨by decide, by decide⟩, .inl rfl⟩,
    ?_, by decide⟩
  intro r hr
  cases hr

/-- For AProcessNeverWritesItsInputsOrMemory and TraceOnlyGrows. -/
theorem witness_running_step :
    (at1000 0xFB000000_55667788).run = .running ∧ (nextOf (at1000 0xFB000000_55667788)).isSome = true := by decide

/-- For HandlerFrame and OnlyRecordAndExtraWordHandlersReadMemory: a handler that reads no memory and goes on. -/
theorem witness_handler :
    (Instr.setfillcolor 1).readsMemory = false ∧ (∃ t, exec (.setfillcolor 1) State.reset = .next t) :=
  ⟨rfl, _, rfl⟩

/-- For OnlySegmentSetWritesSegments: another segment, and another instruction. -/
theorem witness_segment_frame :
    (∃ t, exec (.movewordSegment 4 0x00200000) State.reset = .next t) ∧ (2#4).toNat ≠ (4#16).toNat / 4 % 16 ∧
    (∀ (ofs : BitVec 16) (data : Word), Instr.noop = .movewordSegment ofs data → (1#4).toNat ≠ ofs.toNat / 4 % 16) :=
  ⟨⟨_, rfl⟩, by decide, fun _ _ h => Instr.noConfusion h⟩

/-- For OverflowBitIsSticky: a step with the bit set, a power-on, and a call fetched at depth 32 that sets it. -/
theorem witness_overflow :
    let s : State := { at1000 0xC0000000_00000000 with errOvf := true }
    let off : State := { withMove State.reset .powerOn with errOvf := true }
    let full : State :=
      { at1000 0x06000000_00005000 with stack := topAt 0x1000 :: List.replicate 31 (topAt 0x5008) }
    (nextOf s).map (·.errOvf) = some true ∧ (nextOf off).map (·.errOvf) = some false ∧
    full.errOvf = false ∧ (nextOf full).map (·.errOvf) = some true := by decide

/-- For OpaqueRegistersNeverSteer: two states that differ, and only in the opaque registers. -/
theorem witness_opaque :
    let s := at1000 0xC0000000_00000000
    let u := withRegs s fun r => { r with geom := 7, omh := 0xF00FFFFF, env := 1 }
    s ≠ u ∧ s.withoutOpaque = u.withoutOpaque := by decide

/-! ### Instructions -/

/-- For DlCallsOrBranches and DlcntCallsWithABudget: depth 31, depth 32, and a frame to branch in. -/
theorem witness_calls :
    ({ State.reset with stack := List.replicate 31 (topAt 0x5000) } : State).depth ≠ 32 ∧
    ({ State.reset with stack := List.replicate 32 (topAt 0x5000) } : State).depth = 32 ∧
    (1#8 ≠ 0) ∧ (running 0x1000 []).stack = [topAt 0x1000] := by decide

/-- For EnddlAndUnknownPop. -/
theorem witness_pop : (running 0x1000 []).stack = [topAt 0x1000] := rfl

/-- For ScissorSetIsCheckedAndAnnounced: accepted, rejected at the edge where a side is empty, no policy, a policy. -/
theorem witness_scissor :
    ((0#12).toNat / 4 < (4#12).toNat / 4) ∧ ¬ ((1#12).toNat / 4 < (3#12).toNat / 4) ∧
    State.reset.input.policy.vpHackAlign = none ∧ 0 < 1 ∧
    ({ refPolicy with vpHackAlign := some 1 } : Policy).vpHackAlign = some 1 := by decide

/-- For TexturedRectanglesAreDrawn and ExtraWordFaults: both words just in memory, misaligned, the first out of range,
only the second out of range. -/
theorem witness_extra_words :
    let size := State.reset.cfg.memSize
    ((topAt 0x3FFFF0).addr % 8 = 0 ∧ (topAt 0x3FFFF0).addr + 16 ≤ size) ∧
    (topAt 0x3FFFF4).addr % 8 ≠ 0 ∧
    ((topAt 0x400000).addr % 8 = 0 ∧ size < (topAt 0x400000).addr + 8) ∧
    ((topAt 0x3FFFF8).addr % 8 = 0 ∧ (topAt 0x3FFFF8).addr + 8 ≤ size ∧ size < (topAt 0x3FFFF8).addr + 16) ∧
    (running 0x3FFFF8 []).stack = [topAt 0x3FFFF8] := by decide

/-- For the record loads and RecordFaults: the last 64 and 16 bytes of memory, a misaligned record, one out of range. -/
theorem witness_records :
    let s := State.reset
    (s.resolved 0x3FFFC0 % 8 = 0 ∧ s.resolved 0x3FFFC0 + 64 ≤ s.cfg.memSize) ∧
    (s.resolved 0x3FFFF0 % 8 = 0 ∧ s.resolved 0x3FFFF0 + 16 ≤ s.cfg.memSize) ∧
    s.resolved 0x3FFFF4 % 8 ≠ 0 ∧
    (s.resolved 0x3FFFC8 % 8 = 0 ∧ s.cfg.memSize < s.resolved 0x3FFFC8 + 64) ∧
    (s.resolved 0x3FFFF8 % 8 = 0 ∧ s.cfg.memSize < s.resolved 0x3FFFF8 + 16) := by decide

/-- For MatrixDecodeRoundTrip: sixteen times -0.5 (95_test_vectors.md S9). -/
theorem witness_matrix_round_trip :
    let raw : Nat → Word := fun _ => 0xFFFF8000
    let record : List Byte := List.replicate 32 0xFF ++ (List.replicate 16 [0x80#8, 0x00#8]).flatten
    ∀ k < 16,
      recordByte record (2 * k) = (raw k).extractLsb' 24 8 ∧
      recordByte record (2 * k + 1) = (raw k).extractLsb' 16 8 ∧
      recordByte record (32 + 2 * k) = (raw k).extractLsb' 8 8 ∧
      recordByte record (32 + 2 * k + 1) = (raw k).extractLsb' 0 8 := by decide

/-- For AcceptedNoOpsChangeNothing. -/
theorem witness_no_op :
    Instr.spnoop.isNoOp = true ∧ Instr.noop.isNoOp = true ∧ Instr.rdphalf1.isNoOp = true ∧
    Instr.rdphalf2.isNoOp = true ∧ Instr.loadsync.isNoOp = true ∧ Instr.pipesync.isNoOp = true ∧
    Instr.tilesync.isNoOp = true ∧ Instr.fullsync.isNoOp = true ∧ (Instr.triRdp 7).isNoOp = true ∧
    Instr.setkeyr.isNoOp = true ∧ Instr.setkeygb.isNoOp = true ∧ Instr.setconvert.isNoOp = true := by decide

end Sys2Proof.Tests
end

section
/-! The statements of 00_scope.md settled, and the lemmas they rest on: `MemRead` in numbers (R6, R7), the faults of
the extra fetches (R12), and how many records a handler appends to the trace (R11). -/

namespace Sys2Proof.Machine

/-! ### Memory reads (00_scope.md R6, R7, 20_memory.md R61) -/

/-- Byte `k` from the top of a big-endian number is byte `k` of the list it reads. -/
theorem bigEndian_byte (bytes : List Byte) : ∀ k < bytes.length,
    bigEndian bytes / 256 ^ (bytes.length - 1 - k) % 256 = (bytes.getD k 0).toNat := by
  induction bytes with
  | nil => intro k hk; cases hk
  | cons b rest ih =>
    intro k hk
    cases k with
    | zero =>
      have hdiv : bigEndian (b :: rest) / 256 ^ rest.length = b.toNat := by
        rw [bigEndian, mul_comm, Nat.mul_add_div (by positivity), Nat.div_eq_of_lt (bigEndian_lt rest), add_zero]
      simpa [hdiv] using Nat.mod_eq_of_lt b.isLt
    | succ k =>
      have hk : k < rest.length := by simpa using hk
      have hpow : 256 ^ rest.length = 256 ^ (rest.length - 1 - k) * (256 ^ k * 256) := by
        rw [← pow_succ, ← pow_add]; congr 1; omega
      have hdiv : bigEndian (b :: rest) / 256 ^ (rest.length - 1 - k) =
          b.toNat * 256 ^ k * 256 + bigEndian rest / 256 ^ (rest.length - 1 - k) := by
        rw [bigEndian, hpow, ← Nat.mul_add_div (by positivity)]; congr 2; ring
      rw [List.length_cons, show rest.length + 1 - 1 - (k + 1) = rest.length - 1 - k by omega, hdiv,
        Nat.mul_add_mod_self_right, ih k hk, List.getD_cons_succ]

theorem State.memRead_ok {s : State} {a n : Nat} (h : a + n ≤ s.cfg.memSize) :
    s.memRead a n = .ok (bigEndian (Memory.readBytes s.mem a n)) := by
  simp [State.memRead, State.readBytes_ok h]

theorem State.memRead_range {s : State} {a n : Nat} (h : s.cfg.memSize < a + n) :
    s.memRead a n = .error { code := .range, info := a } := by
  simp [State.memRead, State.readBytes_range h]

/-- The number read from `n` bytes of memory is below `256 ^ n`. -/
theorem bigEndian_readBytes_lt (m : Memory) (a n : Nat) : bigEndian (Memory.readBytes m a n) < 256 ^ n := by
  simpa using bigEndian_lt (Memory.readBytes m a n)

/-- Byte `k` from the top of the number read at `a` is the byte of memory at `a + k`. -/
theorem bigEndian_readBytes_byte (s : State) (a : Nat) {n k : Nat} (hk : k < n) :
    bigEndian (Memory.readBytes s.mem a n) / 256 ^ (n - 1 - k) % 256 = s.byteAt (a + k) := by
  have h := bigEndian_byte (Memory.readBytes s.mem a n) k (by simpa using hk)
  rwa [Memory.length_readBytes, Memory.getD_readBytes s.mem n a k hk] at h

/-- A read that succeeds gives a number below `256 ^ n`. -/
theorem State.memRead_lt {s : State} {a n v : Nat} (h : s.memRead a n = .ok v) : v < 256 ^ n := by
  rcases le_or_gt (a + n) s.cfg.memSize with hle | hgt
  · rw [State.memRead_ok hle] at h
    cases h
    exact bigEndian_readBytes_lt s.mem a n
  · rw [State.memRead_range hgt] at h
    cases h

/-- The two's complement value of a number that fits its width (00_scope.md R7). -/
theorem toInt_ofNat_eq_sext {bits v : Nat} (h : v < 2 ^ bits) : (BitVec.ofNat bits v).toInt = sext bits v := by
  cases bits with
  | zero =>
    obtain rfl : v = 0 := by omega
    rfl
  | succ n =>
    have hpow : 2 ^ (n + 1) = 2 * 2 ^ n := by ring
    rw [BitVec.toInt_eq_toNat_cond, BitVec.toNat_ofNat, Nat.mod_eq_of_lt h, sext, Nat.add_sub_cancel]
    by_cases hv : v < 2 ^ n
    · rw [if_pos hv, if_pos (by omega)]
    · rw [if_neg hv, if_neg (by omega)]; norm_cast

theorem State.memRead8s_ok {s : State} {a v : Nat} (h : s.memRead a 1 = .ok v) : s.memRead8s a = .ok (sext 8 v) := by
  have hv : v < 2 ^ 8 := State.memRead_lt h
  simp [State.memRead8s, h, toInt_ofNat_eq_sext hv]

theorem State.memRead16s_ok {s : State} {a v : Nat} (h : s.memRead a 2 = .ok v) :
    s.memRead16s a = .ok (sext 16 v) := by
  have hv : v < 2 ^ 16 := State.memRead_lt h
  simp [State.memRead16s, h, toInt_ofNat_eq_sext hv]

/-- Settles O7: the bytes of a big-endian number are the bytes read, and the signed reads are narrow enough for
two's complement. -/
theorem memReadIsBigEndianOrRangeFault : Obligations.MemReadIsBigEndianOrRangeFault := by
  unfold Obligations.MemReadIsBigEndianOrRangeFault
  intro s a n
  refine ⟨fun h => ⟨_, State.memRead_ok h, bigEndian_readBytes_lt s.mem a n, ?_⟩, State.memRead_range,
    fun v => State.memRead8s_ok, fun v => State.memRead16s_ok⟩
  exact fun k hk => bigEndian_readBytes_byte s a hk

/-! ### Extra fetches that fault (00_scope.md R12, 60_exceptions.md R301) -/

/-- A fetch reads the parameters and memory, not the stack. -/
@[simp] theorem State.fetchWord_setStack (s : State) (fs : List Frame) (a : Nat) :
    (s.setStack fs).fetchWord a = s.fetchWord a := rfl

/-- A fault in the first extra fetch leaves all but RUN as it was. -/
theorem State.withExtras_first_fault {s : State} {top : Frame} {below : List Frame} {trap : Trap}
    (body : DWord → DWord → State → Result) (hs : s.stack = top :: below)
    (hf : s.fetchWord top.addr = .error trap) : s.withExtras body = .next (s.raise trap) := by
  simp [State.withExtras, State.fetchExtra, hs, hf]

/-- A fault in the second extra fetch leaves the advance past the first word in place. -/
theorem State.withExtras_second_fault {s : State} {top : Frame} {below : List Frame} {e : DWord} {trap : Trap}
    (body : DWord → DWord → State → Result) (hs : s.stack = top :: below)
    (hf : s.fetchWord top.addr = .ok e) (hf' : s.fetchWord (top.addr + 8) = .error trap) :
    s.withExtras body = .next ((s.setStack ({ top with addr := top.addr + 8 } :: below)).raise trap) := by
  simp [State.withExtras, State.fetchExtra, hs, hf, hf']

/-- Both textured rectangles fetch their two extra words before anything else (45_rectangles.md R230, R231). -/
theorem exec_textured_eq_withExtras {i : Instr} {xh yh : BitVec 12} {tile : BitVec 3} {xl yl : BitVec 12}
    (hi : i = .texrect xh yh tile xl yl ∨ i = .texrectflip xh yh tile xl yl) (s : State) :
    ∃ body, exec i s = s.withExtras body := by
  rcases hi with rfl | rfl
  · exact ⟨_, rfl⟩
  · exact ⟨_, rfl⟩

/-- Settles O52: the first fetch faults by alignment or by range, or the second by range (`pc + 8` is as aligned as
`pc`). -/
theorem extraWordFaults : Obligations.ExtraWordFaults := by
  unfold Obligations.ExtraWordFaults
  intro xh yh tile xl yl s top below i hs hi
  obtain ⟨body, he⟩ := exec_textured_eq_withExtras hi s
  rw [he]
  refine ⟨fun ha => ?_, fun ha hr => ?_, fun ha h1 h2 => ?_⟩
  · exact State.withExtras_first_fault body hs (State.fetchWord_align ha)
  · exact State.withExtras_first_fault body hs (State.fetchWord_range ha hr)
  · exact State.withExtras_second_fault body hs (State.fetchWord_ok ha h1)
      (State.fetchWord_range (by omega) (by omega))

/-! ### What a handler appends to the trace (00_scope.md R11, 10_state.md R50) -/

/-- From `s` to `t` the trace keeps every record and gains at most `n`. -/
def State.Appends (n : Nat) (s t : State) : Prop :=
  ∃ new, t.trace = s.trace ++ new ∧ new.length ≤ n

theorem State.Appends.of_trace_eq {n : Nat} {s t : State} (h : t.trace = s.trace) : s.Appends n t :=
  ⟨[], by simpa using h, Nat.zero_le n⟩

theorem State.Appends.of_one {n : Nat} {s t : State} {r : TraceRecord} (h : t.trace = s.trace ++ [r]) :
    s.Appends (n + 1) t :=
  ⟨[r], h, by simp⟩

theorem State.Appends.trans {m n : Nat} {s t u : State} (h : s.Appends m t) (h' : t.Appends n u) :
    s.Appends (m + n) u := by
  obtain ⟨new, ht, hn⟩ := h
  obtain ⟨new', hu, hn'⟩ := h'
  exact ⟨new ++ new', by rw [hu, ht, List.append_assoc], by rw [List.length_append]; omega⟩

theorem State.emit_appends (n : Nat) (s : State) (e : Event) : s.Appends (n + 1) (s.emit e) :=
  .of_one (s.emit_trace e)

theorem State.finish_appends (s : State) : s.Appends 2 s.finish :=
  ⟨_, (s.finish_trace).trans (List.append_assoc ..), by simp⟩

theorem State.offerScissor_appends (s : State) (r : Scissor) : s.Appends 1 (s.offerScissor r) := by
  unfold State.offerScissor
  split
  · exact .of_one (State.emit_trace _ _)
  · exact .of_trace_eq rfl

theorem State.announceViewport_appends (s : State) : s.Appends 1 s.announceViewport := by
  unfold State.announceViewport
  split
  · exact s.emit_appends 0 _
  · exact .of_trace_eq rfl

theorem State.drawTextured_appends (n : Nat) (s : State) (r : Rect) (e : Event) :
    s.Appends (n + 1) (s.drawTextured r e) := by
  unfold State.drawTextured
  split
  · exact s.emit_appends n e
  · exact .of_trace_eq rfl

theorem State.fillRectangle_appends (n : Nat) (s : State) (r : Rect) : s.Appends (n + 1) (s.fillRectangle r) := by
  unfold State.fillRectangle
  split_ifs
  · exact .of_trace_eq rfl
  · exact s.emit_appends n _
  · exact .of_trace_eq rfl
  · exact .of_trace_eq rfl
  · exact s.emit_appends n _

theorem State.emitLight_appends (s : State) (n : Fin 8) (record : List Byte) : s.Appends 2 (s.emitLight n record) := by
  have hcolor := s.emit_appends 0 (lightColorEvent n record)
  unfold State.emitLight
  dsimp only
  split
  · exact s.emit_appends 1 _
  · exact hcolor.trans (State.emit_appends 0 _ _)

/-- A handler that reads a record appends what its body appends. -/
theorem State.withRecord_appends {k a n : Nat} {s t : State} {body : List Byte → State}
    (hbody : ∀ record, s.Appends k (body record)) (h : s.withRecord a n body = .next t) : s.Appends k t := by
  rcases State.withRecord_next h with ⟨trap, -, rfl⟩ | rfl
  · exact .of_trace_eq rfl
  · exact hbody _

theorem State.loadLight_appends {s t : State} {n : Fin 8} {sa : Word} (h : s.loadLight n sa = .next t) :
    s.Appends 2 t :=
  State.withRecord_appends (s.emitLight_appends n) h

/-- A handler that fetches two extra words appends what its body appends. -/
theorem State.withExtras_appends {k : Nat} {s t : State} {body : DWord → DWord → State → Result}
    (hbody : ∀ e1 e2 u, body e1 e2 u = .next t → u.Appends k t) (h : s.withExtras body = .next t) :
    s.Appends k t := by
  obtain ⟨top, below, -, ⟨trap, -, rfl⟩ | ⟨trap, -, rfl⟩ | hb⟩ := State.withExtras_next h
  · exact .of_trace_eq rfl
  · exact .of_trace_eq rfl
  · have happ := hbody _ _ _ hb
    simpa [State.Appends] using happ

theorem State.pop_appends {n : Nat} {s t : State} (h : s.pop = .next t) : s.Appends n t := by
  obtain ⟨top, below, -, rfl⟩ := State.pop_next h
  exact .of_trace_eq rfl

theorem execDl_appends {n : Nat} {p : BitVec 8} {len : BitVec 16} {sa : Word} {s t : State}
    (h : execDl p len sa s = .next t) : s.Appends n t := by
  unfold execDl at h
  split at h
  · cases h
    exact .of_trace_eq (s.push_trace _ _)
  · obtain ⟨top, below, -, rfl⟩ := State.branch_next h
    exact .of_trace_eq rfl

/-- A handler appends at most two records (00_scope.md R11): a scissor and a viewport, or a light's color and
direction. -/
theorem exec_appends {i : Instr} {s t : State} (h : exec i s = .next t) : s.Appends 2 t := by
  cases i with
  | spnoop | noop | rdphalf1 | rdphalf2 | loadsync | pipesync | tilesync | fullsync | triRdp
  | setkeyr | setkeygb | setconvert
  | settimg | setcimg | setzimg | movewordSegment
  | setfillcolor | setothermodeH | setothermodeL | rdpsetothermode | setgeometrymode | cleargeometrymode =>
    cases h
    exact .of_trace_eq rfl
  | setcombine | setprimcolor | setenvcolor | setfogcolor | setblendcolor
  | settile | settilesize | loadtile | loadblock | loadtlut
  | vtx | line3d | texture | popmtx | culldl | tri1 | movewordX | movememX | setprimdepth | externCustom =>
    cases h
    exact .of_one rfl
  | dl p len sa => exact execDl_appends (len := len) h
  | dlcnt =>
    cases h
    exact .of_trace_eq (s.push_trace _ _)
  | enddl | unknown => exact State.pop_appends h
  | mtx | movememViewport => exact State.withRecord_appends (fun _ => s.emit_appends 1 _) h
  | movememLight0 | movememLight1 | movememLight2 | movememLight3
  | movememLight4 | movememLight5 | movememLight6 | movememLight7 => exact State.loadLight_appends h
  | setscissor =>
    cases h
    exact (s.offerScissor_appends _).trans (State.announceViewport_appends _)
  | texrect | texrectflip =>
    refine State.withExtras_appends (fun e1 e2 u hu => ?_) h
    cases hu
    exact u.drawTextured_appends 1 _ _
  | fillrect =>
    cases h
    exact s.fillRectangle_appends 1 _

/-- Settles O33: a dispatch step finishes with two records, faults in its fetch with none, or appends what the
handler appends. -/
theorem traceOnlyGrows : Obligations.TraceOnlyGrows := by
  unfold Obligations.TraceOnlyGrows
  intro s t hrun h
  have hstep : stepRunning s = .next t := by simpa [step, hrun] using h
  rcases stepRunning_next hstep with ⟨-, rfl⟩ | ⟨top, below, -, -, ⟨trap, -, rfl⟩ | ⟨u, -, hexec, rfl⟩⟩
  · exact s.finish_appends
  · exact State.Appends.of_trace_eq rfl
  · simpa [State.Appends] using exec_appends hexec

end Sys2Proof.Machine
end

section
/-! The statements of 10_state.md settled, and the lemmas they rest on: which part of the state steers the DLI (R22),
what a handler does to the segments, ERR_OVF, the stack and the registers, and the machine after power-on (R52). -/

namespace Sys2Proof.Machine

/-- A fetch that reads a word is aligned and in range (20_memory.md R67, R69). -/
theorem State.fetchWord_eq_ok {s : State} {a : Nat} {w : DWord} (h : s.fetchWord a = .ok w) :
    a % 8 = 0 ∧ a + 8 ≤ s.cfg.memSize := by
  rcases s.fetchWord_cases a with ⟨-, e⟩ | ⟨-, -, e⟩ | ⟨ha, hr, -⟩
  · rw [e] at h; cases h
  · rw [e] at h; cases h
  · exact ⟨ha, hr⟩

/-! ### The state without its opaque registers (10_state.md R22) -/

/-- The registers of `State.withoutOpaque`: what steers the DLI stays, the rest is cleared. -/
def Regs.steering (r : Regs) : Regs :=
  { r with
    timg := .cleared, omh := r.omh &&& 0x00300000#32, oml := 0, geom := 0,
    combine := { mux0 := 0, mux1 := 0 }, prim := { color := 0, m := 0, l := 0 },
    env := 0, fog := 0, blend := 0 }

theorem State.withoutOpaque_eq (s : State) : s.withoutOpaque =
    { s with
      pcache := { s.pcache with vstride := 0 }
      errOvf := false
      regs := s.regs.steering
      trace := s.trace.map fun r => { r with snap := clearedRegs s.cfg.scissorReset } } := rfl

@[simp] theorem State.withoutOpaque_stack (s : State) : s.withoutOpaque.stack = s.stack := rfl
@[simp] theorem State.withoutOpaque_run (s : State) : s.withoutOpaque.run = s.run := rfl
@[simp] theorem State.withoutOpaque_regs (s : State) : s.withoutOpaque.regs = s.regs.steering := rfl
@[simp] theorem State.withoutOpaque_input (s : State) : s.withoutOpaque.input = s.input := rfl
@[simp] theorem State.withoutOpaque_host (s : State) : s.withoutOpaque.host = s.host := rfl

@[simp] theorem Regs.steering_steering (r : Regs) : r.steering.steering = r.steering := by
  simp [Regs.steering, BitVec.and_assoc]

@[simp] theorem State.withoutOpaque_withoutOpaque (s : State) :
    s.withoutOpaque.withoutOpaque = s.withoutOpaque := by
  simp [State.withoutOpaque_eq]

/-! ### What does not read the opaque registers -/

theorem State.depth_withoutOpaque (s : State) : s.withoutOpaque.depth = s.depth := rfl

theorem State.ceilingReached_withoutOpaque (s : State) : s.withoutOpaque.ceilingReached = s.ceilingReached := rfl

theorem State.readAligned_withoutOpaque (s : State) (a n : Nat) :
    s.withoutOpaque.readAligned a n = s.readAligned a n := rfl

theorem State.fetchWord_withoutOpaque (s : State) (a : Nat) : s.withoutOpaque.fetchWord a = s.fetchWord a := rfl

theorem State.detect_withoutOpaque (s : State) (task : Task) : s.withoutOpaque.detect task = s.detect task := rfl

theorem State.viewportPolicyApplies_withoutOpaque (s : State) :
    s.withoutOpaque.viewportPolicyApplies = s.viewportPolicyApplies := rfl

theorem State.imageSupported_withoutOpaque (s : State) : s.withoutOpaque.imageSupported = s.imageSupported := rfl

theorem State.gate_withoutOpaque (s : State) (r : Rect) : s.withoutOpaque.gate r = s.gate r := rfl

@[simp] theorem State.imageDesc_withoutOpaque (s : State) (fmt : BitVec 3) (siz : BitVec 2) (wm1 : BitVec 12)
    (sa : Word) : s.withoutOpaque.imageDesc fmt siz wm1 sa = s.imageDesc fmt siz wm1 sa := rfl

/-- The cycle type is among the bits of OMH that steer (10_state.md R44). -/
theorem cycleField_steering (r : Regs) : cycleField r.steering.omh = cycleField r.omh := by
  have hmask : (0x00300000#32).extractLsb' 20 2 = BitVec.allOnes 2 := by decide
  rw [cycleField, Regs.steering, BitVec.extractLsb'_and, hmask, BitVec.and_allOnes, cycleField]

@[simp] theorem isCopy_steering (r : Regs) : isCopy r.steering.omh = isCopy r.omh := by
  simp [isCopy, cycleField_steering]

@[simp] theorem isFill_steering (r : Regs) : isFill r.steering.omh = isFill r.omh := by
  simp [isFill, cycleField_steering]

@[simp] theorem rectOf_steering (r : Regs) (xh yh xl yl : BitVec 12) :
    rectOf r.steering.omh xh yh xl yl = rectOf r.omh xh yh xl yl := by
  simp [rectOf, farEdgeExtra]

@[simp] theorem texCoordsOf_steering (r : Regs) (e1 e2 : DWord) :
    texCoordsOf r.steering.omh e1 e2 = texCoordsOf r.omh e1 e2 := by
  simp [texCoordsOf, gradientBits]

@[simp] theorem State.clearsFramebuffer_withoutOpaque (s : State) (r : Rect) :
    s.withoutOpaque.clearsFramebuffer r = s.clearsFramebuffer r := by
  have hcovers : s.withoutOpaque.coversFramebuffer r = s.coversFramebuffer r := rfl
  simp [State.clearsFramebuffer, hcovers]

/-- The steering bits of a masked write depend on the old value's steering bits only (44_raster_state.md R202). -/
theorem maskedWrite_and_keep (old keep mask data : Word) :
    maskedWrite (old &&& keep) mask data &&& keep = maskedWrite old mask data &&& keep := by
  ext i
  simp only [maskedWrite, BitVec.getElem_and, BitVec.getElem_or]
  cases keep[i] <;> simp

/-! ### Operations that do not see the opaque registers -/

theorem State.emit_withoutOpaque (s : State) (e : Event) :
    (s.withoutOpaque.emit e).withoutOpaque = (s.emit e).withoutOpaque := by
  simp [State.withoutOpaque_eq, State.emit]

theorem State.setStack_withoutOpaque (s : State) (fs : List Frame) :
    (s.withoutOpaque.setStack fs).withoutOpaque = (s.setStack fs).withoutOpaque :=
  (s.setStack fs).withoutOpaque_withoutOpaque

theorem State.setRegs_withoutOpaque (s : State) {r r' : Regs} (h : r'.steering = r.steering) :
    (s.withoutOpaque.setRegs r').withoutOpaque = (s.setRegs r).withoutOpaque := by
  simp [State.withoutOpaque_eq, State.setRegs, h]

/-- An operation that does not see the opaque registers leads from states alike but for them to such states. -/
theorem withoutOpaque_congr {g : State → State} {s u : State}
    (hg : ∀ v : State, (g v.withoutOpaque).withoutOpaque = (g v).withoutOpaque)
    (h : s.withoutOpaque = u.withoutOpaque) : (g s).withoutOpaque = (g u).withoutOpaque := by
  rw [← hg, h, hg]

theorem State.emit_withoutOpaque_congr {s u : State} (e : Event) (h : s.withoutOpaque = u.withoutOpaque) :
    (s.emit e).withoutOpaque = (u.emit e).withoutOpaque :=
  withoutOpaque_congr (g := (·.emit e)) (fun v => v.emit_withoutOpaque e) h

theorem State.push_withoutOpaque (s : State) (a : Nat) (c : Option Nat) :
    (s.withoutOpaque.push a c).withoutOpaque = (s.push a c).withoutOpaque := by
  unfold State.push
  rw [State.depth_withoutOpaque]
  split
  · exact s.withoutOpaque_withoutOpaque
  · exact s.setStack_withoutOpaque _

theorem State.offerScissor_withoutOpaque (s : State) (r : Scissor) :
    (s.withoutOpaque.offerScissor r).withoutOpaque = (s.offerScissor r).withoutOpaque := by
  unfold State.offerScissor
  split
  · refine State.emit_withoutOpaque_congr _ (s.setRegs_withoutOpaque ?_)
    simp [Regs.steering, BitVec.and_assoc]
  · exact s.withoutOpaque_withoutOpaque

theorem State.announceViewport_withoutOpaque (s : State) :
    s.withoutOpaque.announceViewport.withoutOpaque = s.announceViewport.withoutOpaque := by
  unfold State.announceViewport
  rw [State.viewportPolicyApplies_withoutOpaque]
  split
  · exact s.emit_withoutOpaque _
  · exact s.withoutOpaque_withoutOpaque

theorem State.drawTextured_withoutOpaque (s : State) (r : Rect) (e : Event) :
    (s.withoutOpaque.drawTextured r e).withoutOpaque = (s.drawTextured r e).withoutOpaque := by
  unfold State.drawTextured
  rw [State.gate_withoutOpaque]
  split
  · exact s.emit_withoutOpaque _
  · exact s.withoutOpaque_withoutOpaque

theorem State.fillRectangle_withoutOpaque (s : State) (r : Rect) :
    (s.withoutOpaque.fillRectangle r).withoutOpaque = (s.fillRectangle r).withoutOpaque := by
  unfold State.fillRectangle
  rw [State.clearsFramebuffer_withoutOpaque, State.imageSupported_withoutOpaque,
    show s.withoutOpaque.regs.scissor = s.regs.scissor from rfl]
  split_ifs
  · exact s.withoutOpaque_withoutOpaque
  · exact s.emit_withoutOpaque _
  · exact s.withoutOpaque_withoutOpaque
  · exact s.withoutOpaque_withoutOpaque
  · exact s.emit_withoutOpaque _

theorem State.emitLight_withoutOpaque (s : State) (n : Fin 8) (record : List Byte) :
    (s.withoutOpaque.emitLight n record).withoutOpaque = (s.emitLight n record).withoutOpaque := by
  have hcolor := s.emit_withoutOpaque (lightColorEvent n record)
  unfold State.emitLight
  dsimp only
  split
  · exact hcolor
  · exact State.emit_withoutOpaque_congr _ hcolor

theorem State.afterHandler_withoutOpaque (s : State) :
    s.withoutOpaque.afterHandler = s.afterHandler.withoutOpaque := by
  unfold State.afterHandler
  rw [State.withoutOpaque_run]
  split <;> rfl

/-! ### Handlers that do not see the opaque registers -/

theorem State.pop_withoutOpaque (s : State) :
    onNext State.withoutOpaque s.withoutOpaque.pop = onNext State.withoutOpaque s.pop := by
  unfold State.pop
  rw [State.withoutOpaque_stack]
  cases s.stack with
  | nil => rfl
  | cons top below => exact congrArg Host.Outcome.next (s.setStack_withoutOpaque below)

theorem State.branch_withoutOpaque (s : State) (a : Nat) :
    onNext State.withoutOpaque (s.withoutOpaque.branch a) = onNext State.withoutOpaque (s.branch a) := by
  unfold State.branch
  rw [State.withoutOpaque_stack]
  cases s.stack with
  | nil => rfl
  | cons top below => exact congrArg Host.Outcome.next (s.setStack_withoutOpaque _)

theorem State.withRecord_withoutOpaque (s : State) (a n : Nat) {body body' : List Byte → State}
    (hbody : ∀ record, (body' record).withoutOpaque = (body record).withoutOpaque) :
    onNext State.withoutOpaque (s.withoutOpaque.withRecord a n body') =
      onNext State.withoutOpaque (s.withRecord a n body) := by
  unfold State.withRecord
  rw [State.readAligned_withoutOpaque]
  cases s.readAligned a n with
  | error t => exact congrArg Host.Outcome.next (s.raise t).withoutOpaque_withoutOpaque
  | ok bytes => exact congrArg Host.Outcome.next (hbody bytes)

theorem State.withExtras_withoutOpaque (s : State) {body : DWord → DWord → State → Result}
    (hbody : ∀ e1 e2 v,
      onNext State.withoutOpaque (body e1 e2 v.withoutOpaque) = onNext State.withoutOpaque (body e1 e2 v)) :
    onNext State.withoutOpaque (s.withoutOpaque.withExtras body) =
      onNext State.withoutOpaque (s.withExtras body) := by
  cases hs : s.stack with
  | nil => simp [State.withExtras, State.fetchExtra, hs, onNext]
  | cons top below =>
    cases hf : s.fetchWord top.addr with
    | error trap =>
      rw [State.withExtras_first_fault body hs hf, State.withExtras_first_fault (s := s.withoutOpaque) body hs hf]
      exact congrArg Host.Outcome.next (s.raise trap).withoutOpaque_withoutOpaque
    | ok e1 =>
      cases hf' : s.fetchWord (top.addr + 8) with
      | error trap =>
        rw [State.withExtras_second_fault body hs hf hf',
          State.withExtras_second_fault (s := s.withoutOpaque) body hs hf hf']
        exact congrArg Host.Outcome.next
          ((s.setStack ({ top with addr := top.addr + 8 } :: below)).raise trap).withoutOpaque_withoutOpaque
      | ok e2 =>
        obtain ⟨ha, -⟩ := State.fetchWord_eq_ok hf
        obtain ⟨-, hr⟩ := State.fetchWord_eq_ok hf'
        rw [State.withExtras_ok body hs ha hr, State.withExtras_ok (s := s.withoutOpaque) body hs ha hr]
        exact hbody (wordAt s.mem top.addr) _ (s.setStack ({ top with addr := top.addr + 16 } :: below))

/-- No handler sees the opaque registers: where it reads OMH it reads the cycle type, and an opaque register it writes
goes to that register and the snapshots only. -/
theorem exec_withoutOpaque (i : Instr) (s : State) :
    onNext State.withoutOpaque (exec i s.withoutOpaque) = onNext State.withoutOpaque (exec i s) := by
  cases i with
  | spnoop | noop | rdphalf1 | rdphalf2 | loadsync | pipesync | tilesync | fullsync | triRdp
  | setkeyr | setkeygb | setconvert => exact congrArg Host.Outcome.next s.withoutOpaque_withoutOpaque
  | settile | settilesize | loadtile | loadblock | loadtlut
  | vtx | line3d | texture | popmtx | culldl | tri1 | movewordX | movememX | setprimdepth | externCustom =>
    exact congrArg Host.Outcome.next (s.emit_withoutOpaque _)
  | movewordSegment ofs data => exact congrArg Host.Outcome.next (s.setSegment _ data).withoutOpaque_withoutOpaque
  | settimg | setcimg | setzimg | setfillcolor | setothermodeL | rdpsetothermode
  | setgeometrymode | cleargeometrymode =>
    refine congrArg Host.Outcome.next (s.setRegs_withoutOpaque ?_)
    simp [Regs.steering, BitVec.and_assoc]
  | setothermodeH =>
    refine congrArg Host.Outcome.next (s.setRegs_withoutOpaque ?_)
    simp [Regs.steering, maskedWrite_and_keep]
  | setcombine | setprimcolor | setenvcolor | setfogcolor | setblendcolor =>
    refine congrArg Host.Outcome.next (State.emit_withoutOpaque_congr _ (s.setRegs_withoutOpaque ?_))
    simp [Regs.steering, BitVec.and_assoc]
  | dl p len sa =>
    simp only [exec, execDl]
    split
    · exact congrArg Host.Outcome.next (s.push_withoutOpaque _ _)
    · exact s.branch_withoutOpaque _
  | dlcnt => exact congrArg Host.Outcome.next (s.push_withoutOpaque _ _)
  | enddl | unknown => exact s.pop_withoutOpaque
  | mtx | movememViewport => exact s.withRecord_withoutOpaque _ _ fun _ => s.emit_withoutOpaque _
  | movememLight0 | movememLight1 | movememLight2 | movememLight3
  | movememLight4 | movememLight5 | movememLight6 | movememLight7 =>
    exact s.withRecord_withoutOpaque _ _ (s.emitLight_withoutOpaque _)
  | setscissor =>
    exact congrArg Host.Outcome.next
      (withoutOpaque_congr State.announceViewport_withoutOpaque (s.offerScissor_withoutOpaque _))
  | texrect | texrectflip =>
    refine s.withExtras_withoutOpaque fun e1 e2 v => ?_
    simp only [State.withoutOpaque_regs, rectOf_steering, texCoordsOf_steering]
    exact congrArg Host.Outcome.next (v.drawTextured_withoutOpaque _ _)
  | fillrect =>
    simp only [exec, execFillrect, State.withoutOpaque_regs, rectOf_steering]
    exact congrArg Host.Outcome.next (s.fillRectangle_withoutOpaque _)

/-! ### The step does not see the opaque registers -/

/-- What follows the handler does not see the opaque registers. -/
theorem settle_onNext_withoutOpaque (r : Result) :
    onNext State.withoutOpaque (settle r) = settle (onNext State.withoutOpaque r) := by
  cases r with
  | next s => exact congrArg Host.Outcome.next s.afterHandler_withoutOpaque.symm
  | fault f => rfl
  | refused r => rfl

theorem State.finish_withoutOpaque (s : State) : s.withoutOpaque.finish.withoutOpaque = s.finish.withoutOpaque := by
  simp [State.withoutOpaque_eq, State.finish, State.emit]

theorem stepRunning_withoutOpaque (s : State) :
    onNext State.withoutOpaque (stepRunning s.withoutOpaque) = onNext State.withoutOpaque (stepRunning s) := by
  unfold stepRunning State.fetch
  rw [State.withoutOpaque_stack, State.ceilingReached_withoutOpaque]
  cases s.stack with
  | nil => exact congrArg Host.Outcome.next s.finish_withoutOpaque
  | cons top below =>
    by_cases hc : s.ceilingReached = true
    · simp only [if_pos hc]
      exact congrArg Host.Outcome.next s.finish_withoutOpaque
    · simp only [if_neg hc]
      rw [State.fetchWord_withoutOpaque]
      cases s.fetchWord top.addr with
      | error trap => exact congrArg Host.Outcome.next (s.raise trap).withoutOpaque_withoutOpaque
      | ok w =>
        have hexec := exec_withoutOpaque (decodeDWord s.pcache.table w) (s.afterFetch top below)
        have hsettle := congrArg settle hexec
        rwa [← settle_onNext_withoutOpaque, ← settle_onNext_withoutOpaque] at hsettle

theorem State.resolveProfile_withoutOpaque (s : State) (task : Task) :
    (s.withoutOpaque.resolveProfile task).withoutOpaque = (s.resolveProfile task).withoutOpaque := by
  unfold State.resolveProfile
  rw [show (s.withoutOpaque.pcache.valid && s.withoutOpaque.pcache.codeBase == task.codeBase) =
    (s.pcache.valid && s.pcache.codeBase == task.codeBase) from rfl]
  split
  · exact s.withoutOpaque_withoutOpaque
  · dsimp only
    rw [State.detect_withoutOpaque]
    simp [State.withoutOpaque_eq]

theorem State.startProcess_withoutOpaque (s : State) (input : FrameInput) :
    (s.withoutOpaque.startProcess input).withoutOpaque = (s.startProcess input).withoutOpaque := by
  unfold State.startProcess
  dsimp only
  split
  · have hprofile := State.resolveProfile_withoutOpaque { s with input := input } input.task
    exact State.emit_withoutOpaque_congr _ (State.emit_withoutOpaque_congr _ (withoutOpaque_congr
      (g := fun v => { v.perFrameReset input.task with run := .running }) (fun _ => rfl) hprofile))
  · rfl

theorem State.takeMove_withoutOpaque (s : State) (move : HostMove) :
    onNext State.withoutOpaque (s.withoutOpaque.takeMove move) = onNext State.withoutOpaque (s.takeMove move) := by
  cases move with
  | powerOn => rfl
  | writeMemory a bytes =>
    unfold State.takeMove
    dsimp only
    by_cases hle : a + bytes.length ≤ s.cfg.memSize
    · rw [if_pos hle, if_pos (show _ ≤ s.withoutOpaque.cfg.memSize from hle)]
      exact congrArg Host.Outcome.next
        (State.withoutOpaque_withoutOpaque { s with mem := Memory.writeBytes s.mem a bytes })
    · rw [if_neg hle, if_neg (show ¬ _ ≤ s.withoutOpaque.cfg.memSize from hle)]
  | startProcess input => exact congrArg Host.Outcome.next (s.startProcess_withoutOpaque input)

theorem State.betweenProcesses_withoutOpaque (s : State) :
    onNext State.withoutOpaque s.withoutOpaque.betweenProcesses =
      onNext State.withoutOpaque s.betweenProcesses := by
  unfold State.betweenProcesses
  rw [State.withoutOpaque_host]
  cases s.host with
  | nil => exact congrArg Host.Outcome.next s.withoutOpaque_withoutOpaque
  | cons move later => exact State.takeMove_withoutOpaque { s with host := later } move

theorem State.whileFaulted_withoutOpaque (s : State) (trap : Trap) :
    s.withoutOpaque.whileFaulted trap = s.whileFaulted trap := by
  unfold State.whileFaulted
  rw [State.withoutOpaque_host]
  split <;> rfl

/-- A step of the state without its opaque registers is the step, without the opaque registers of its outcome. -/
theorem step_withoutOpaque (s : State) :
    onNext State.withoutOpaque (step s.withoutOpaque) = onNext State.withoutOpaque (step s) := by
  unfold step
  rw [State.withoutOpaque_run]
  cases s.run with
  | running => exact stepRunning_withoutOpaque s
  | idle | done => exact s.betweenProcesses_withoutOpaque
  | faulted trap => exact congrArg _ (s.whileFaulted_withoutOpaque trap)

/-- Settles O35: clearing the opaque registers before the step changes nothing but them, and after it both states
are the same. -/
theorem opaqueRegistersNeverSteer : Obligations.OpaqueRegistersNeverSteer := by
  unfold Obligations.OpaqueRegistersNeverSteer
  intro s u h
  rw [← step_withoutOpaque s, h, step_withoutOpaque u]

/-! ### What a handler does to the segments, ERR_OVF and the stack (10_state.md R30, R33, R39) -/

/-- From `s` to `t` the parameters, the segments, ERR_OVF and the depth are kept. -/
structure State.KeepsControl (s t : State) : Prop where
  cfg : t.cfg = s.cfg
  seg : t.seg = s.seg
  errOvf : t.errOvf = s.errOvf
  depth : t.depth = s.depth

theorem State.emit_keepsControl (s : State) (e : Event) : s.KeepsControl (s.emit e) := ⟨rfl, rfl, rfl, rfl⟩

theorem State.KeepsControl.of_withRecord {s t : State} {a n : Nat} {body : List Byte → State}
    (hbody : ∀ record, s.KeepsControl (body record)) (h : s.withRecord a n body = .next t) : s.KeepsControl t := by
  rcases State.withRecord_next h with ⟨trap, -, rfl⟩ | rfl
  · exact ⟨rfl, rfl, rfl, rfl⟩
  · exact hbody _

theorem State.KeepsControl.of_loadLight {s t : State} {n : Fin 8} {sa : Word} (h : s.loadLight n sa = .next t) :
    s.KeepsControl t :=
  .of_withRecord (fun record => ⟨s.emitLight_cfg n record, s.emitLight_seg n record, s.emitLight_errOvf n record,
    by simp [State.depth]⟩) h

/-- The extra fetches move the top frame's address, so the depth stays. -/
theorem State.KeepsControl.of_withExtras {s t : State} {body : DWord → DWord → State → Result}
    (hbody : ∀ e1 e2 u, body e1 e2 u = .next t → u.KeepsControl t) (h : s.withExtras body = .next t) :
    s.KeepsControl t := by
  obtain ⟨top, below, hs, ⟨trap, -, rfl⟩ | ⟨trap, -, rfl⟩ | hb⟩ := State.withExtras_next h
  · exact ⟨rfl, rfl, rfl, rfl⟩
  · exact ⟨rfl, rfl, rfl, by simp [State.depth, hs]⟩
  · obtain ⟨hcfg, hseg, herr, hdepth⟩ := hbody _ _ _ hb
    exact ⟨hcfg, hseg, herr, by simpa [State.depth, hs] using hdepth⟩

/-- What a handler does to the parameters, the segments, ERR_OVF and the depth: keep them, write one segment, push,
or pop. -/
theorem exec_control {i : Instr} {s t : State} (h : exec i s = .next t) :
    s.KeepsControl t ∨
    (∃ ofs data, i = .movewordSegment ofs data ∧ t = s.setSegment (segmentNumber ofs) data) ∨
    (i.isCall = true ∧ ∃ a c, t = s.push a c) ∨
    (∃ top below, s.stack = top :: below ∧ t = s.setStack below) := by
  cases i with
  | spnoop | noop | rdphalf1 | rdphalf2 | loadsync | pipesync | tilesync | fullsync | triRdp
  | setkeyr | setkeygb | setconvert
  | settimg | setcimg | setzimg
  | setfillcolor | setothermodeH | setothermodeL | rdpsetothermode | setgeometrymode | cleargeometrymode
  | setcombine | setprimcolor | setenvcolor | setfogcolor | setblendcolor
  | settile | settilesize | loadtile | loadblock | loadtlut
  | vtx | line3d | texture | popmtx | culldl | tri1 | movewordX | movememX | setprimdepth | externCustom =>
    cases h
    exact .inl ⟨rfl, rfl, rfl, rfl⟩
  | setscissor | fillrect =>
    cases h
    exact .inl ⟨by simp, by simp, by simp, by simp [State.depth]⟩
  | mtx | movememViewport => exact .inl (.of_withRecord (fun _ => s.emit_keepsControl _) h)
  | movememLight0 | movememLight1 | movememLight2 | movememLight3
  | movememLight4 | movememLight5 | movememLight6 | movememLight7 => exact .inl (.of_loadLight h)
  | texrect | texrectflip =>
    refine .inl (.of_withExtras (fun e1 e2 u hu => ?_) h)
    cases hu
    exact ⟨by simp, by simp, by simp, by simp [State.depth]⟩
  | movewordSegment ofs data =>
    cases h
    exact .inr (.inl ⟨ofs, data, rfl, rfl⟩)
  | dl p len sa =>
    simp only [exec, execDl] at h
    split at h
    · rename_i hp
      cases h
      exact .inr (.inr (.inl ⟨by simp [Instr.isCall, hp], _, _, rfl⟩))
    · obtain ⟨top, below, hs, rfl⟩ := State.branch_next h
      exact .inl ⟨rfl, rfl, rfl, by simp [State.depth, hs]⟩
  | dlcnt =>
    cases h
    exact .inr (.inr (.inl ⟨rfl, _, _, rfl⟩))
  | enddl | unknown => exact .inr (.inr (.inr (State.pop_next h)))

/-! ### Segments (10_state.md R30) -/

/-- The segment number as 42_addressing_image.md R173 computes it. -/
theorem segmentNumber_toNat (ofs : BitVec 16) : (segmentNumber ofs).toNat = ofs.toNat / 4 % 16 := by
  simp [segmentNumber, Nat.shiftRight_eq_div_pow]

/-- Settles O31: a segment set writes the register its offset names, and no other handler writes SEG. -/
theorem onlySegmentSetWritesSegments : Obligations.OnlySegmentSetWritesSegments := by
  unfold Obligations.OnlySegmentSetWritesSegments
  intro i s t n h hother
  rcases exec_control h with hkeep | ⟨ofs, data, hi, rfl⟩ | ⟨-, a, c, rfl⟩ | ⟨top, below, -, rfl⟩
  · exact State.segment_congr hkeep.seg n
  · refine s.segment_setSegment_other data fun hn => hother ofs data hi ?_
    rw [hn, segmentNumber_toNat]
  · exact State.segment_congr (s.push_seg a c) n
  · rfl

/-! ### The stack (10_state.md R36) -/

theorem State.push_depth_le {s : State} (a : Nat) (c : Option Nat) (h : s.depth ≤ stackMax) :
    (s.push a c).depth ≤ stackMax := by
  rcases s.push_cases a c with ⟨-, e⟩ | ⟨hne, e⟩ <;> rw [e]
  · exact h
  · exact Nat.lt_of_le_of_ne h hne

/-- No handler exceeds STACK_MAX. -/
theorem exec_depth_le {i : Instr} {s t : State} (h : exec i s = .next t) (hs : s.depth ≤ stackMax) :
    t.depth ≤ stackMax := by
  rcases exec_control h with hkeep | ⟨ofs, data, -, rfl⟩ | ⟨-, a, c, rfl⟩ | ⟨top, below, hstack, rfl⟩
  · exact hkeep.depth.trans_le hs
  · exact hs
  · exact State.push_depth_le a c hs
  · rw [State.depth, hstack] at hs
    exact (Nat.le_succ _).trans hs

/-- The exhausted-frame pop establishes the stack invariant (40_dispatch_loop.md R124). -/
theorem State.afterHandler_stackInv {s : State} (h : s.depth ≤ stackMax) : s.afterHandler.StackInv := by
  refine ⟨?_, fun hrun => ?_⟩
  · have hle := dropExhausted_length_le s.stack
    rw [State.depth, State.afterHandler_stack]
    split
    · exact hle.trans h
    · exact h
  · rw [State.afterHandler_run] at hrun
    obtain ⟨-, -, -, htop⟩ := dropExhausted_split s.stack
    simpa [hrun] using htop

/-- The stack invariant asks nothing of the top frame of a machine that does not run. -/
theorem State.StackInv.of_not_running {s : State} (hdepth : s.depth ≤ stackMax) (hrun : s.run ≠ .running) :
    s.StackInv :=
  ⟨hdepth, fun h => absurd h hrun⟩

theorem State.powerOn_stackInv (s : State) : s.powerOn.StackInv :=
  .of_not_running (Nat.zero_le _) (fun h => by cases h)

/-- A Process starts with one frame without a budget, or with none (40_dispatch_loop.md R115 to R117). -/
theorem State.startProcess_stack (s : State) (input : FrameInput) :
    (s.startProcess input).stack = [{ addr := input.task.entry, cnt := none }] ∨ (s.startProcess input).stack = [] := by
  unfold State.startProcess
  dsimp only
  split
  · exact .inl rfl
  · exact .inr rfl

theorem State.startProcess_stackInv (s : State) (input : FrameInput) : (s.startProcess input).StackInv := by
  rcases s.startProcess_stack input with h | h <;> simp [State.StackInv, State.depth, stackMax, h]

/-- Settles O25: a handler leaves at most 32 frames and the pop after it leaves budget in the top one; every other step
keeps the stack or starts it anew. -/
theorem stepKeepsTheStackInvariant : Obligations.StepKeepsTheStackInvariant := by
  unfold Obligations.StepKeepsTheStackInvariant
  intro s t hinv h
  have hdepth := hinv.1
  rcases step_next h with ⟨-, h⟩ | ⟨-, h⟩ | ⟨trap, -, h⟩
  · rcases stepRunning_next h with ⟨-, rfl⟩ | ⟨top, below, hs, -, ⟨trap, -, rfl⟩ | ⟨u, -, hexec, rfl⟩⟩
    · exact .of_not_running hdepth (fun h => by cases h)
    · exact .of_not_running hdepth (fun h => by cases h)
    · refine State.afterHandler_stackInv (exec_depth_le hexec ?_)
      simpa [State.depth, hs] using hdepth
  · rcases State.betweenProcesses_next h with ⟨-, rfl⟩ | ⟨later, -, rfl⟩ | ⟨a, bytes, later, -, -, rfl⟩ |
      ⟨input, later, -, rfl⟩
    · exact hinv
    · exact State.powerOn_stackInv _
    · exact hinv
    · exact State.startProcess_stackInv _ input
  · obtain ⟨later, -, rfl⟩ := State.whileFaulted_next h
    exact State.powerOn_stackInv _

/-! ### ERR_OVF (10_state.md R39) -/

/-- A handler keeps ERR_OVF, or is a call at depth 32 and sets it. -/
theorem exec_errOvf {i : Instr} {s t : State} (h : exec i s = .next t) :
    t.errOvf = s.errOvf ∨ (s.depth = stackMax ∧ i.isCall = true ∧ t.errOvf = true) := by
  rcases exec_control h with hkeep | ⟨ofs, data, -, rfl⟩ | ⟨hcall, a, c, rfl⟩ | ⟨top, below, -, rfl⟩
  · exact .inl hkeep.errOvf
  · exact .inl rfl
  · rcases s.push_cases a c with ⟨hfull, e⟩ | ⟨-, e⟩ <;> rw [e]
    · exact .inr ⟨hfull, hcall, rfl⟩
    · exact .inl rfl
  · exact .inl rfl

theorem State.startProcess_errOvf (s : State) (input : FrameInput) : (s.startProcess input).errOvf = s.errOvf := by
  unfold State.startProcess
  dsimp only
  split
  · exact State.resolveProfile_errOvf _ _
  · rfl

/-- The instruction a fetch hands to its handler is the one at the address it fetched from. -/
theorem State.instrAt_eq_decodeDWord (s : State) (a : Nat) :
    s.instrAt a = some (decodeDWord s.pcache.table (wordAt s.mem a)) := rfl

/-- What a step does to ERR_OVF: it keeps it, is a power-on, or runs a call fetched at depth 32 and sets it. -/
theorem step_errOvf {s t : State} (h : step s = .next t) :
    t.errOvf = s.errOvf ∨
    (s.host.head? = some .powerOn ∧ s.run ≠ .running ∧ t.errOvf = false) ∨
    (t.errOvf = true ∧
      ∃ top below i, s.Fetches top below ∧ s.instrAt top.addr = some i ∧ s.depth = 32 ∧ i.isCall = true) := by
  rcases step_next h with ⟨hrun, h⟩ | ⟨hrun, h⟩ | ⟨trap, hrun, h⟩
  · rcases stepRunning_next h with ⟨-, rfl⟩ | ⟨top, below, hs, hc, ⟨trap, -, rfl⟩ | ⟨u, hf, hexec, rfl⟩⟩
    · exact .inl rfl
    · exact .inl rfl
    · rw [State.afterHandler_errOvf]
      rcases exec_errOvf hexec with hkeep | ⟨hfull, hcall, hset⟩
      · exact .inl hkeep
      · obtain ⟨ha, hr⟩ := State.fetchWord_eq_ok hf
        have hdepth : s.depth = 32 := by simpa [State.depth, hs, stackMax] using hfull
        exact .inr (.inr ⟨hset, top, below, _, ⟨hrun, hs, hc, ha, hr⟩, s.instrAt_eq_decodeDWord _, hdepth, hcall⟩)
  · have hnot : s.run ≠ .running := by rcases hrun with hrun | hrun <;> simp [hrun]
    rcases State.betweenProcesses_next h with ⟨-, rfl⟩ | ⟨later, hhost, rfl⟩ | ⟨a, bytes, later, -, -, rfl⟩ |
      ⟨input, later, -, rfl⟩
    · exact .inl rfl
    · exact .inr (.inl ⟨by simp [hhost], hnot, rfl⟩)
    · exact .inl rfl
    · exact .inl (State.startProcess_errOvf _ input)
  · obtain ⟨later, hhost, rfl⟩ := State.whileFaulted_next h
    exact .inr (.inl ⟨by simp [hhost], by simp [hrun], rfl⟩)

/-- Settles O32: of the three things a step can do to ERR_OVF, only the power-on clears it and only the call sets it. -/
theorem overflowBitIsSticky : Obligations.OverflowBitIsSticky := by
  unfold Obligations.OverflowBitIsSticky
  intro s t h
  rcases step_errOvf h with hkeep | ⟨hhost, hrun, hclear⟩ | ⟨hset, hcall⟩
  · exact ⟨fun hs => .inl (hkeep.trans hs), fun hs ht => by simp [hkeep, hs] at ht⟩
  · exact ⟨fun _ => .inr ⟨hhost, hrun, hclear⟩, fun _ ht => by simp [hclear] at ht⟩
  · exact ⟨fun _ => .inl hset, fun _ _ => hcall⟩

/-! ### Register ranges (10_state.md R40, R42) -/

/-- A resolved address fits 25 bits (20_memory.md R65). -/
theorem State.resolve_lt (s : State) (sa : Word) : s.resolve sa < 2 ^ 25 := by
  have hmask : ∀ w : Word, (w &&& 0x00FFFFFF#32).toNat ≤ 0x00FFFFFF := fun w => by
    rw [BitVec.toNat_and]
    exact Nat.and_le_right
  have hbase := hmask (s.segment (sa.extractLsb' 24 4))
  have hoffset := hmask sa
  rw [State.resolve]
  omega

theorem State.imageDesc_inRange (s : State) (fmt : BitVec 3) (siz : BitVec 2) (wm1 : BitVec 12) (sa : Word) :
    (s.imageDesc fmt siz wm1 sa).InRange := by
  refine ⟨s.resolve_lt sa, ?_⟩
  rw [imageDesc_width]
  omega

theorem wholePixels_le (v : BitVec 12) : wholePixels v ≤ 1023 := by
  rw [wholePixels_eq]
  omega

/-- From `s` to `t`, the registers stay in range. -/
def State.KeepsRanges (s t : State) : Prop :=
  ∀ scissorReset, s.regs.InRange scissorReset → t.regs.InRange scissorReset

theorem State.KeepsRanges.of_regs_eq {s t : State} (h : t.regs = s.regs) : s.KeepsRanges t :=
  fun _ hr => by rwa [h]

/-- A scissor that is accepted is in order and within 0..1023 (44_raster_state.md R200). -/
theorem State.offerScissor_keepsRanges (s : State) (ulx uly lrx lry : BitVec 12) :
    s.KeepsRanges (s.offerScissor (requestedScissor ulx uly lrx lry)) := by
  intro scissorReset hr
  rw [State.offerScissor_regs]
  split
  · rename_i haccept
    obtain ⟨htimg, hcimg, hzimg, -⟩ := hr
    simp only [acceptable, Bool.and_eq_true, decide_eq_true_eq] at haccept
    obtain ⟨hx, hy⟩ := haccept
    exact ⟨htimg, hcimg, hzimg, .inr ⟨hx, hy, wholePixels_le lrx, wholePixels_le lry⟩⟩
  · exact hr

/-- Every handler keeps the ranges: the image sets store a descriptor in range, the scissor set stores an accepted
scissor, and the others leave both alone. -/
theorem exec_keepsRanges {i : Instr} {s t : State} (h : exec i s = .next t) : s.KeepsRanges t := by
  cases i with
  | spnoop | noop | rdphalf1 | rdphalf2 | loadsync | pipesync | tilesync | fullsync | triRdp
  | setkeyr | setkeygb | setconvert | movewordSegment
  | settile | settilesize | loadtile | loadblock | loadtlut
  | vtx | line3d | texture | popmtx | culldl | tri1 | movewordX | movememX | setprimdepth | externCustom =>
    cases h
    exact .of_regs_eq rfl
  | setfillcolor | setothermodeH | setothermodeL | rdpsetothermode | setgeometrymode | cleargeometrymode
  | setcombine | setprimcolor | setenvcolor | setfogcolor | setblendcolor =>
    cases h
    exact fun _ hr => hr
  | settimg fmt siz wm1 sa =>
    cases h
    exact fun _ ⟨_, hcimg, hzimg, hscissor⟩ => ⟨s.imageDesc_inRange fmt siz wm1 sa, hcimg, hzimg, hscissor⟩
  | setcimg fmt siz wm1 sa =>
    cases h
    exact fun _ ⟨htimg, _, hzimg, hscissor⟩ => ⟨htimg, s.imageDesc_inRange fmt siz wm1 sa, hzimg, hscissor⟩
  | setzimg fmt siz wm1 sa =>
    cases h
    exact fun _ ⟨htimg, hcimg, _, hscissor⟩ => ⟨htimg, hcimg, s.imageDesc_inRange fmt siz wm1 sa, hscissor⟩
  | setscissor ulx uly mode lrx lry =>
    cases h
    intro scissorReset hr
    rw [State.announceViewport_regs]
    exact s.offerScissor_keepsRanges ulx uly lrx lry scissorReset hr
  | fillrect =>
    cases h
    exact .of_regs_eq (s.fillRectangle_regs _)
  | mtx | movememViewport =>
    rcases State.withRecord_next h with ⟨trap, -, rfl⟩ | rfl <;> exact .of_regs_eq rfl
  | movememLight0 | movememLight1 | movememLight2 | movememLight3
  | movememLight4 | movememLight5 | movememLight6 | movememLight7 =>
    rcases State.withRecord_next h with ⟨trap, -, rfl⟩ | rfl
    · exact .of_regs_eq rfl
    · exact .of_regs_eq (s.emitLight_regs _ _)
  | texrect | texrectflip =>
    obtain ⟨top, below, -, ⟨trap, -, rfl⟩ | ⟨trap, -, rfl⟩ | hb⟩ := State.withExtras_next h
    · exact .of_regs_eq rfl
    · exact .of_regs_eq rfl
    · cases hb
      exact .of_regs_eq (State.drawTextured_regs _ _ _)
  | dl p len sa =>
    simp only [exec, execDl] at h
    split at h
    · cases h
      exact .of_regs_eq (s.push_regs _ _)
    · obtain ⟨top, below, -, rfl⟩ := State.branch_next h
      exact .of_regs_eq rfl
  | dlcnt =>
    cases h
    exact .of_regs_eq (s.push_regs _ _)
  | enddl | unknown =>
    obtain ⟨top, below, -, rfl⟩ := State.pop_next h
    exact .of_regs_eq rfl

/-- No handler changes the parameters. -/
theorem exec_cfg {i : Instr} {s t : State} (h : exec i s = .next t) : t.cfg = s.cfg := by
  rcases exec_control h with hkeep | ⟨ofs, data, -, rfl⟩ | ⟨-, a, c, rfl⟩ | ⟨top, below, -, rfl⟩
  · exact hkeep.cfg
  · rfl
  · exact s.push_cfg a c
  · rfl

/-- Cleared registers are in range (10_state.md R48). -/
theorem clearedRegs_inRange (scissorReset : Scissor) : (clearedRegs scissorReset).InRange scissorReset := by
  have hcleared : ImageDesc.cleared.InRange := ⟨by decide, by decide⟩
  exact ⟨hcleared, hcleared, hcleared, .inl rfl⟩

theorem State.startProcess_cfg (s : State) (input : FrameInput) : (s.startProcess input).cfg = s.cfg := by
  unfold State.startProcess
  dsimp only
  split
  · exact State.resolveProfile_cfg _ _
  · rfl

theorem State.startProcess_regs (s : State) (input : FrameInput) :
    (s.startProcess input).regs = clearedRegs s.cfg.scissorReset := by
  unfold State.startProcess
  dsimp only
  split
  · exact congrArg (fun cfg : Config => clearedRegs cfg.scissorReset) (State.resolveProfile_cfg _ _)
  · rfl

/-- Settles O26: a handler keeps the ranges and the parameters; every other step keeps the registers or clears them. -/
theorem stepKeepsTheRegisterRanges : Obligations.StepKeepsTheRegisterRanges := by
  unfold Obligations.StepKeepsTheRegisterRanges
  intro s t hr h
  rcases step_next h with ⟨-, h⟩ | ⟨-, h⟩ | ⟨trap, -, h⟩
  · rcases stepRunning_next h with ⟨-, rfl⟩ | ⟨top, below, -, -, ⟨trap, -, rfl⟩ | ⟨u, -, hexec, rfl⟩⟩
    · exact hr
    · exact hr
    · rw [State.afterHandler_regs, State.afterHandler_cfg, exec_cfg hexec]
      exact exec_keepsRanges hexec _ hr
  · rcases State.betweenProcesses_next h with ⟨-, rfl⟩ | ⟨later, -, rfl⟩ | ⟨a, bytes, later, -, -, rfl⟩ |
      ⟨input, later, -, rfl⟩
    · exact hr
    · exact clearedRegs_inRange s.cfg.scissorReset
    · exact hr
    · rw [State.startProcess_regs, State.startProcess_cfg]
      exact clearedRegs_inRange s.cfg.scissorReset
  · obtain ⟨later, -, rfl⟩ := State.whileFaulted_next h
    exact clearedRegs_inRange s.cfg.scissorReset

/-! ### The machine after power-on (10_state.md R52) -/

/-- Settles O28: at power-on the stack and the trace are empty, the registers cleared, RUN idle and no byte listed. -/
theorem powerOnMeetsTheInvariants : Obligations.PowerOnMeetsTheInvariants := by
  unfold Obligations.PowerOnMeetsTheInvariants
  exact ⟨State.powerOn_stackInv State.reset, clearedRegs_inRange _, rfl, reset_mem_wf⟩

end Sys2Proof.Machine
end

section
/-! The statements of 20_memory.md settled, and the lemmas they rest on: `resolve` in numbers (R65, R66), what a step
leaves alone of memory and of what the host gave the Process (R70), the fetches and record loads that fault (R67 to
R69), and the handlers that do not see memory (R60, R63). -/

namespace Sys2Proof.Machine

/-! ### The Segment Translator (20_memory.md R65, R66) -/

/-- The mask of R65 keeps a word modulo 2^24. -/
theorem toNat_and_mask24 (w : Word) : (w &&& 0x00FFFFFF#32).toNat = w.toNat % 2 ^ 24 := by
  rw [BitVec.toNat_and]
  exact Nat.and_two_pow_sub_one_eq_mod w.toNat 24

theorem State.resolve_eq_mod_add_mod (s : State) (sa : Word) :
    s.resolve sa = (s.segment (sa.extractLsb' 24 4)).toNat % 2 ^ 24 + sa.toNat % 2 ^ 24 := by
  rw [State.resolve, toNat_and_mask24, toNat_and_mask24]

/-- The segment field `sa[27:24]` in numbers. -/
theorem segmentField_eq_ofNat (sa : Word) : sa.extractLsb' 24 4 = BitVec.ofNat 4 (sa.toNat / 2 ^ 24 % 16) := by
  apply BitVec.eq_of_toNat_eq
  simp [Nat.shiftRight_eq_div_pow]

theorem State.resolve_eq_resolved (s : State) (sa : Word) : s.resolve sa = s.resolved sa := by
  rw [State.resolve_eq_mod_add_mod, segmentField_eq_ofNat, State.resolved]

/-- Settles O8: both masks are remainders modulo 2^24, each at most 0xFFFFFF. -/
theorem resolveIsTheUnreducedSum : Obligations.ResolveIsTheUnreducedSum := by
  unfold Obligations.ResolveIsTheUnreducedSum
  intro s sa
  refine ⟨s.resolve_eq_resolved sa, ?_⟩
  rw [State.resolve_eq_mod_add_mod]
  omega

/-- Settles O9: `resolve` reads the one register its address names, and a write changes no other. -/
theorem segmentSlotsAreIndependent : Obligations.SegmentSlotsAreIndependent := by
  unfold Obligations.SegmentSlotsAreIndependent
  intro s n v sa
  refine ⟨fun hother => ?_, fun hsame => ?_⟩
  · rw [State.resolve, s.segment_setSegment_other v hother, State.resolve]
  · rw [State.resolve_eq_mod_add_mod, hsame, State.segment_setSegment_same]

/-! ### Faulting fetches (20_memory.md R67, R69) -/

theorem step_of_running {s : State} (h : s.run = .running) : step s = stepRunning s := by
  simp [step, h]

/-- A fault in the fetch ends the step before it counts anything (40_dispatch_loop.md R122). -/
theorem stepRunning_fetch_fault {s : State} {top : Frame} {below : List Frame} {trap : Trap}
    (hs : s.stack = top :: below) (hc : s.ceilingReached = false) (hf : s.fetchWord top.addr = .error trap) :
    stepRunning s = .next (s.raise trap) := by
  simp [stepRunning, State.fetch, hs, hc, hf]

/-- Settles O13: the fetch faults by alignment, or aligned by range, and the step only raises the fault. -/
theorem fetchFaultsLeaveTheFrame : Obligations.FetchFaultsLeaveTheFrame := by
  unfold Obligations.FetchFaultsLeaveTheFrame
  intro s top below hrun hs hc
  rw [step_of_running hrun]
  exact ⟨fun ha => stepRunning_fetch_fault hs hc (State.fetchWord_align ha),
    fun ha hr => stepRunning_fetch_fault hs hc (State.fetchWord_range ha hr)⟩

/-! ### Record loads that fault (20_memory.md R68, R69) -/

/-- A fault in a record's read leaves all but RUN as it was. -/
theorem State.withRecord_fault {s : State} {a n : Nat} {trap : Trap} (body : List Byte → State)
    (h : s.readAligned a n = .error trap) : s.withRecord a n body = .next (s.raise trap) := by
  simp [State.withRecord, h]

/-- Every MOVEMEM of a light is the one light load. -/
theorem exec_lightLoad (n : Fin 8) (len : BitVec 16) (sa : Word) (s : State) :
    exec (Instr.lightLoad n len sa) s = s.loadLight n sa := by
  fin_cases n <;> rfl

/-- The record loads read their record before anything else (46_matrix_light.md R260 to R262). -/
theorem exec_load_eq_withRecord {p : BitVec 8} {n : Fin 8} {len : BitVec 16} {sa : Word} {i : Instr} {size : Nat}
    (hi : (i = .mtx p len sa ∧ size = 64) ∨ (i = Instr.lightLoad n len sa ∧ size = 16) ∨
      (i = .movememViewport len sa ∧ size = 16)) (s : State) :
    ∃ body, exec i s = s.withRecord (s.resolve sa) size body := by
  rcases hi with ⟨rfl, rfl⟩ | ⟨rfl, rfl⟩ | ⟨rfl, rfl⟩
  · exact ⟨_, rfl⟩
  · exact ⟨_, exec_lightLoad n len sa s⟩
  · exact ⟨_, rfl⟩

/-- Settles O58: the record's read faults by alignment, or aligned by range, and the load only raises the fault. -/
theorem recordFaults : Obligations.RecordFaults := by
  unfold Obligations.RecordFaults
  intro p n len sa s i size hi
  obtain ⟨body, he⟩ := exec_load_eq_withRecord hi s
  rw [he, s.resolve_eq_resolved sa]
  exact ⟨fun ha => State.withRecord_fault body (State.readAligned_align ha),
    fun ha hr => State.withRecord_fault body (State.readAligned_range ha hr)⟩

/-! ### What a Process never writes (20_memory.md R70, 40_dispatch_loop.md R111, R125) -/

/-- From `s` to `t` the inputs of the Process, PCACHE, guest memory and the host's moves are kept. -/
structure State.KeepsInputs (s t : State) : Prop where
  input : t.input = s.input
  pcache : t.pcache = s.pcache
  mem : t.mem = s.mem
  host : t.host = s.host

theorem State.KeepsInputs.trans {s t u : State} (h : s.KeepsInputs t) (h' : t.KeepsInputs u) : s.KeepsInputs u :=
  ⟨h'.input.trans h.input, h'.pcache.trans h.pcache, h'.mem.trans h.mem, h'.host.trans h.host⟩

theorem State.emit_keepsInputs (s : State) (e : Event) : s.KeepsInputs (s.emit e) := ⟨rfl, rfl, rfl, rfl⟩

theorem State.raise_keepsInputs (s : State) (trap : Trap) : s.KeepsInputs (s.raise trap) := ⟨rfl, rfl, rfl, rfl⟩

theorem State.setStack_keepsInputs (s : State) (fs : List Frame) : s.KeepsInputs (s.setStack fs) :=
  ⟨rfl, rfl, rfl, rfl⟩

theorem State.push_keepsInputs (s : State) (a : Nat) (c : Option Nat) : s.KeepsInputs (s.push a c) :=
  ⟨s.push_input a c, s.push_pcache a c, s.push_mem a c, s.push_host a c⟩

theorem State.emitLight_keepsInputs (s : State) (n : Fin 8) (record : List Byte) :
    s.KeepsInputs (s.emitLight n record) :=
  ⟨s.emitLight_input n record, s.emitLight_pcache n record, s.emitLight_mem n record, s.emitLight_host n record⟩

theorem State.drawTextured_keepsInputs (s : State) (r : Rect) (e : Event) : s.KeepsInputs (s.drawTextured r e) :=
  ⟨s.drawTextured_input r e, s.drawTextured_pcache r e, s.drawTextured_mem r e, s.drawTextured_host r e⟩

theorem State.afterHandler_keepsInputs (s : State) : s.KeepsInputs s.afterHandler :=
  ⟨s.afterHandler_input, s.afterHandler_pcache, s.afterHandler_mem, s.afterHandler_host⟩

theorem State.KeepsInputs.of_withRecord {s t : State} {a n : Nat} {body : List Byte → State}
    (hbody : ∀ record, s.KeepsInputs (body record)) (h : s.withRecord a n body = .next t) : s.KeepsInputs t := by
  rcases State.withRecord_next h with ⟨trap, -, rfl⟩ | rfl
  · exact s.raise_keepsInputs trap
  · exact hbody _

theorem State.KeepsInputs.of_withExtras {s t : State} {body : DWord → DWord → State → Result}
    (hbody : ∀ e1 e2 u, body e1 e2 u = .next t → u.KeepsInputs t) (h : s.withExtras body = .next t) :
    s.KeepsInputs t := by
  obtain ⟨top, below, -, ⟨trap, -, rfl⟩ | ⟨trap, -, rfl⟩ | hb⟩ := State.withExtras_next h
  · exact s.raise_keepsInputs trap
  · exact (s.setStack_keepsInputs _).trans (State.raise_keepsInputs _ trap)
  · exact (s.setStack_keepsInputs _).trans (hbody _ _ _ hb)

/-- No handler writes the inputs, PCACHE, guest memory or the host's moves (40_dispatch_loop.md R125). -/
theorem exec_keepsInputs {i : Instr} {s t : State} (h : exec i s = .next t) : s.KeepsInputs t := by
  cases i with
  | spnoop | noop | rdphalf1 | rdphalf2 | loadsync | pipesync | tilesync | fullsync | triRdp
  | setkeyr | setkeygb | setconvert
  | settimg | setcimg | setzimg | movewordSegment
  | setfillcolor | setothermodeH | setothermodeL | rdpsetothermode | setgeometrymode | cleargeometrymode
  | setcombine | setprimcolor | setenvcolor | setfogcolor | setblendcolor
  | settile | settilesize | loadtile | loadblock | loadtlut
  | vtx | line3d | texture | popmtx | culldl | tri1 | movewordX | movememX | setprimdepth | externCustom =>
    cases h
    exact ⟨rfl, rfl, rfl, rfl⟩
  | setscissor | fillrect =>
    cases h
    exact ⟨by simp, by simp, by simp, by simp⟩
  | mtx | movememViewport => exact .of_withRecord (fun _ => s.emit_keepsInputs _) h
  | movememLight0 | movememLight1 | movememLight2 | movememLight3
  | movememLight4 | movememLight5 | movememLight6 | movememLight7 =>
    exact .of_withRecord (s.emitLight_keepsInputs _) h
  | texrect | texrectflip =>
    refine .of_withExtras (fun e1 e2 u hu => ?_) h
    cases hu
    exact u.drawTextured_keepsInputs _ _
  | dl p len sa =>
    simp only [exec, execDl] at h
    split at h
    · cases h
      exact s.push_keepsInputs _ _
    · obtain ⟨top, below, -, rfl⟩ := State.branch_next h
      exact s.setStack_keepsInputs _
  | dlcnt =>
    cases h
    exact s.push_keepsInputs _ _
  | enddl | unknown =>
    obtain ⟨top, below, -, rfl⟩ := State.pop_next h
    exact s.setStack_keepsInputs _

/-- A dispatch step finishes, faults in its fetch, or is a fetch, a handler and a pop, none of which writes these. -/
theorem stepRunning_keepsInputs {s t : State} (h : stepRunning s = .next t) : s.KeepsInputs t := by
  rcases stepRunning_next h with ⟨-, rfl⟩ | ⟨top, below, -, -, ⟨trap, -, rfl⟩ | ⟨u, -, hexec, rfl⟩⟩
  · exact ⟨rfl, rfl, rfl, rfl⟩
  · exact s.raise_keepsInputs trap
  · have hfetch : s.KeepsInputs (s.afterFetch top below) := ⟨rfl, rfl, rfl, rfl⟩
    exact (hfetch.trans (exec_keepsInputs hexec)).trans u.afterHandler_keepsInputs

theorem stepRunning_cfg {s t : State} (h : stepRunning s = .next t) : t.cfg = s.cfg := by
  rcases stepRunning_next h with ⟨-, rfl⟩ | ⟨top, below, -, -, ⟨trap, -, rfl⟩ | ⟨u, -, hexec, rfl⟩⟩
  · rfl
  · rfl
  · exact u.afterHandler_cfg.trans ((exec_cfg hexec).trans (s.afterFetch_cfg top below))

/-- No step changes the parameters (00_scope.md R5). -/
theorem step_cfg {s t : State} (h : step s = .next t) : t.cfg = s.cfg := by
  rcases step_next h with ⟨-, h⟩ | ⟨-, h⟩ | ⟨trap, -, h⟩
  · exact stepRunning_cfg h
  · rcases State.betweenProcesses_next h with ⟨-, rfl⟩ | ⟨later, -, rfl⟩ | ⟨a, bytes, later, -, -, rfl⟩ |
      ⟨input, later, -, rfl⟩
    · rfl
    · rfl
    · rfl
    · exact State.startProcess_cfg _ input
  · obtain ⟨later, -, rfl⟩ := State.whileFaulted_next h
    rfl

/-- Settles O29: the parameters are kept by every step, and the rest by fetch, handler and pop. -/
theorem aProcessNeverWritesItsInputsOrMemory : Obligations.AProcessNeverWritesItsInputsOrMemory := by
  unfold Obligations.AProcessNeverWritesItsInputsOrMemory
  intro s t h
  refine ⟨step_cfg h, fun hrun => ?_⟩
  obtain ⟨hinput, hpcache, hmem, hhost⟩ := stepRunning_keepsInputs ((step_of_running hrun).symm.trans h)
  exact ⟨hinput, hpcache, hmem, hhost⟩

/-! ### The canonical form (20_memory.md R70, log 4) -/

theorem State.startProcess_mem (s : State) (input : FrameInput) : (s.startProcess input).mem = s.mem := by
  unfold State.startProcess
  dsimp only
  split
  · exact State.resolveProfile_mem _ _
  · rfl

/-- The one step that writes guest memory is the host's write between Processes. -/
theorem step_mem {s t : State} (h : step s = .next t) :
    t.mem = s.mem ∨ ∃ a bytes, t.mem = Memory.writeBytes s.mem a bytes := by
  rcases step_next h with ⟨-, h⟩ | ⟨-, h⟩ | ⟨trap, -, h⟩
  · exact .inl (stepRunning_keepsInputs h).mem
  · rcases State.betweenProcesses_next h with ⟨-, rfl⟩ | ⟨later, -, rfl⟩ | ⟨a, bytes, later, -, -, rfl⟩ |
      ⟨input, later, -, rfl⟩
    · exact .inl rfl
    · exact .inl rfl
    · exact .inr ⟨a, bytes, rfl⟩
    · exact .inl (State.startProcess_mem _ input)
  · obtain ⟨later, -, rfl⟩ := State.whileFaulted_next h
    exact .inl rfl

/-- Settles O10: a step keeps guest memory or writes the host's bytes, and a write keeps the canonical form. -/
theorem stepKeepsMemoryCanonical : Obligations.StepKeepsMemoryCanonical := by
  unfold Obligations.StepKeepsMemoryCanonical
  intro s t hwf h
  rcases step_mem h with hmem | ⟨a, bytes, hmem⟩ <;> rw [hmem]
  · exact hwf
  · exact Memory.writeBytes_wf bytes s.mem a hwf

/-! ### Handlers that do not see guest memory (20_memory.md R60, R63) -/

/-- The state with another guest memory. -/
def State.withMem (s : State) (m : Memory) : State := { s with mem := m }

theorem State.push_withMem (s : State) (m : Memory) (a : Nat) (c : Option Nat) :
    (s.withMem m).push a c = (s.push a c).withMem m := by
  unfold State.push
  rw [show (s.withMem m).depth = s.depth from rfl]
  split <;> rfl

theorem State.offerScissor_withMem (s : State) (m : Memory) (r : Scissor) :
    (s.withMem m).offerScissor r = (s.offerScissor r).withMem m := by
  unfold State.offerScissor
  split <;> rfl

theorem State.announceViewport_withMem (s : State) (m : Memory) :
    (s.withMem m).announceViewport = s.announceViewport.withMem m := by
  unfold State.announceViewport
  rw [show (s.withMem m).viewportPolicyApplies = s.viewportPolicyApplies from rfl]
  split <;> rfl

theorem State.fillRectangle_withMem (s : State) (m : Memory) (r : Rect) :
    (s.withMem m).fillRectangle r = (s.fillRectangle r).withMem m := by
  unfold State.fillRectangle
  rw [show (s.withMem m).imageSupported = s.imageSupported from rfl,
    show (s.withMem m).clearsFramebuffer r = s.clearsFramebuffer r from rfl,
    show (s.withMem m).regs = s.regs from rfl]
  split_ifs <;> rfl

theorem State.pop_withMem (s : State) (m : Memory) : (s.withMem m).pop = onNext (·.withMem m) s.pop := by
  unfold State.pop
  rw [show (s.withMem m).stack = s.stack from rfl]
  cases s.stack <;> rfl

theorem State.branch_withMem (s : State) (m : Memory) (a : Nat) :
    (s.withMem m).branch a = onNext (·.withMem m) (s.branch a) := by
  unfold State.branch
  rw [show (s.withMem m).stack = s.stack from rfl]
  cases s.stack <;> rfl

/-- A handler that reads no memory commutes with replacing it: the updates of the registers, the segments and the
trace leave it alone, and no test of the other handlers looks at it. -/
theorem exec_withMem {i : Instr} (s : State) (m : Memory) (hi : i.readsMemory = false) :
    exec i (s.withMem m) = onNext (·.withMem m) (exec i s) := by
  cases i with
  | mtx | movememViewport
  | movememLight0 | movememLight1 | movememLight2 | movememLight3
  | movememLight4 | movememLight5 | movememLight6 | movememLight7
  | texrect | texrectflip => cases hi
  | spnoop | noop | rdphalf1 | rdphalf2 | loadsync | pipesync | tilesync | fullsync | triRdp
  | setkeyr | setkeygb | setconvert
  | settimg | setcimg | setzimg | movewordSegment
  | setfillcolor | setothermodeH | setothermodeL | rdpsetothermode | setgeometrymode | cleargeometrymode
  | setcombine | setprimcolor | setenvcolor | setfogcolor | setblendcolor
  | settile | settilesize | loadtile | loadblock | loadtlut
  | vtx | line3d | texture | popmtx | culldl | tri1 | movewordX | movememX | setprimdepth | externCustom => rfl
  | setscissor ulx uly mode lrx lry =>
    simp only [exec, execSetscissor, State.offerScissor_withMem, State.announceViewport_withMem, onNext]
  | fillrect => exact congrArg Host.Outcome.next (s.fillRectangle_withMem m _)
  | dl p len sa =>
    simp only [exec, execDl]
    split
    · exact congrArg Host.Outcome.next (s.push_withMem m _ _)
    · exact s.branch_withMem m _
  | dlcnt => exact congrArg Host.Outcome.next (s.push_withMem m _ _)
  | enddl | unknown => exact s.pop_withMem m

/-- Settles O34: the handlers with a record or extra words left out, every handler commutes with `State.withMem`. -/
theorem onlyRecordAndExtraWordHandlersReadMemory : Obligations.OnlyRecordAndExtraWordHandlersReadMemory := by
  unfold Obligations.OnlyRecordAndExtraWordHandlersReadMemory
  exact fun i s m hi => exec_withMem s m hi

end Sys2Proof.Machine
end

section
/-! The statements of 30_encoding.md settled, and the lemmas they rest on: what a handler reads back from the word of
its own instruction (R82, R88), which fields two words that agree on the named bits share (R82), the eight bytes of a
word as a number (R80), and the slots a table leaves unbound (R86). -/

namespace Sys2Proof

/-! ### A handler reads back the word of its own instruction (30_encoding.md R82, R88) -/

/-- In the slot it fits, an instruction's word carries the slot's opcode, whatever the instruction (R80). -/
theorem opcodeOf_encodeAt {op : BitVec 8} {i : Instr} (h : i.fitsSlot op = true) : opcodeOf (encodeAt op i) = op := by
  open Laws.OpcodeByte in
  cases i with
  | mtx | dl | dlcnt | movememViewport
  | movememLight0 | movememLight1 | movememLight2 | movememLight3
  | movememLight4 | movememLight5 | movememLight6 | movememLight7 => exact of_dma ..
  | movewordSegment => exact of_mw ..
  | setothermodeH | setothermodeL => exact of_om ..
  | setgeometrymode | cleargeometrymode | setfillcolor | setenvcolor | setfogcolor | setblendcolor => exact of_imm ..
  | settimg | setcimg | setzimg => exact of_img ..
  | setprimcolor => exact of_prim ..
  | setcombine | rdpsetothermode => exact of_low24 ..
  | setscissor => exact of_scis ..
  | fillrect => exact of_rect ..
  | texrect | texrectflip => exact of_trect ..
  | spnoop | noop | rdphalf1 | rdphalf2 | loadsync | pipesync | tilesync | fullsync | triRdp
  | setkeyr | setkeygb | setconvert | enddl | unknown => exact of_raw ..
  | movewordX w0 w1 => exact movewordX w0 w1 op h
  | movememX w0 w1 => exact movememX w0 w1 op h
  | vtx | line3d | texture | popmtx | culldl | tri1 | setprimdepth | externCustom
  | settile | settilesize | loadtile | loadblock | loadtlut => exact of_forwarded _ h

/-- A word whose index is none of R88's nine is taken whole. -/
theorem decodeMovemem_of_not_index {w0 : Word} (w1 : Word) (h : w0.extractLsb' 16 8 ∉ movememIndices) :
    decodeMovemem w0 w1 = .movememX w0 w1 := by
  simp only [movememIndices, List.mem_cons, List.not_mem_nil, not_or] at h
  simp only [decodeMovemem, h, if_false]

/-- The handler of an instruction reads the instruction back from its word: its format names every operand. -/
theorem decodeFor_encodeAt {op : BitVec 8} {i : Instr} (h : i.fitsSlot op = true) :
    decodeFor i.handler op (firstHalf (encodeAt op i)) (secondHalf (encodeAt op i)) = i := by
  cases i with
  | spnoop | noop | rdphalf1 | rdphalf2 | loadsync | pipesync | tilesync | fullsync
  | setkeyr | setkeygb | setconvert | enddl => rfl
  | triRdp => exact congrArg Instr.triRdp (eq_of_beq h)
  | unknown => exact congrArg Instr.unknown (eq_of_beq h).symm
  | movewordX w0 w1 =>
    obtain ⟨-, hidx⟩ := Bool.and_eq_true_iff.mp h
    simpa [encodeAt, Instr.handler, decodeFor, decodeMoveword] using hidx
  | movememX w0 w1 =>
    obtain ⟨-, hidx⟩ := Bool.and_eq_true_iff.mp h
    simpa [encodeAt, Instr.handler, decodeFor] using decodeMovemem_of_not_index w1 (by simpa using hidx)
  | vtx | line3d | texture | popmtx | culldl | tri1 | setprimdepth | externCustom
  | settile | settilesize | loadtile | loadblock | loadtlut =>
    simp only [encodeAt, Instr.handler, decodeFor, decodeExtern, firstHalf_joinHalves, secondHalf_joinHalves]
  | mtx | dl | dlcnt | movewordSegment
  | setothermodeH | setothermodeL | setprimcolor
  | setgeometrymode | cleargeometrymode | setfillcolor | setenvcolor | setfogcolor | setblendcolor
  | settimg | setcimg | setzimg | setcombine | rdpsetothermode
  | setscissor | fillrect | texrect | texrectflip =>
    simp (disch := decide) only [encodeAt, encodeDma, encodeMw, encodeOm, encodePrim, encodeImm, encodeImg,
      encodeLow24, encodeScis, encodeRect, encodeTrect, Instr.handler, decodeFor, decodeMoveword, if_true,
      firstHalf_joinHalves, secondHalf_joinHalves, extract_low, extract_high, extract_all, Nat.reduceSub]
  | movememViewport
  | movememLight0 | movememLight1 | movememLight2 | movememLight3
  | movememLight4 | movememLight5 | movememLight6 | movememLight7 =>
    simp (disch := decide) only [encodeAt, encodeDma, Instr.handler, decodeFor, decodeMovemem, firstHalf_joinHalves,
      secondHalf_joinHalves, extract_low, extract_high, extract_all, Nat.reduceSub]
    rfl

/-- A well-formed instruction is decoded from its word: the opcode selects the handler, and the handler reads the
operands. -/
theorem decodeDWord_encodeAt {t : Table} {op : BitVec 8} {i : Instr} (h : i.wellFormed op (lookupHandler t op) = true) :
    decodeDWord t (encodeAt op i) = i := by
  obtain ⟨hbound, hfits⟩ := Bool.and_eq_true_iff.mp h
  rw [decodeDWord, opcodeOf_encodeAt hfits, eq_of_beq hbound, decodeFor_encodeAt hfits]

/-- Settles O1: whatever the instruction, its word carries the slot's opcode and each named slice is an operand. -/
theorem decodeOfEncodeIsTheInstruction : Obligations.DecodeOfEncodeIsTheInstruction := by
  unfold Obligations.DecodeOfEncodeIsTheInstruction
  exact fun t op i h => decodeDWord_encodeAt h

/-! ### The bytes of a word (30_encoding.md R80, 20_memory.md R61) -/

/-- The eight bytes of a word, read big-endian, are the word. -/
theorem ofNat_bigEndian_dwordBytes (w : DWord) : BitVec.ofNat 64 (bigEndian (dwordBytes w)) = w := by
  apply BitVec.eq_of_toNat_eq
  simp only [dwordBytes, bigEndian, BitVec.toNat_ofNat, BitVec.extractLsb'_toNat, Nat.shiftRight_eq_div_pow,
    List.length_cons, List.length_nil]
  omega

theorem decodeBytes_dwordBytes (t : Table) (w : DWord) (rest : List Byte) :
    decodeBytes t (dwordBytes w ++ rest) = .ok (decodeDWord t w, rest) := by
  conv_rhs => rw [← ofNat_bigEndian_dwordBytes w]
  rfl

/-- Settles O2: the bytes are the word's, and the word decodes to the instruction. -/
theorem decodeOfEncodedBytesIsTheInstruction : Obligations.DecodeOfEncodedBytesIsTheInstruction := by
  unfold Obligations.DecodeOfEncodedBytesIsTheInstruction
  intro i rest h
  rw [decodeBytes_dwordBytes, encode, decodeDWord_encodeAt h]

/-! ### The bits a format does not name (30_encoding.md R82, R87) -/

/-- The whole word, if the mask names all of it. -/
theorem eq_of_agree_all {w v : DWord} (h : w &&& BitVec.allOnes 64 = v &&& BitVec.allOnes 64) : w = v := by
  simpa only [BitVec.and_allOnes] using h

/-- A handler reads only the bits its format names: each field is a slice of one half that the mask covers. -/
theorem decodeFor_congr {h : Handler} (op : BitVec 8) {w v : DWord} (hag : w &&& h.namedBits = v &&& h.namedBits) :
    decodeFor h op (firstHalf w) (secondHalf w) = decodeFor h op (firstHalf v) (secondHalf v) := by
  cases h with
  | dl | dlcnt | mtx | movemem | moveword | setcombine | rdpsetothermode
  | settile | settilesize | loadtile | loadblock | loadtlut | extern =>
    rw [eq_of_agree_all hag]
  | setothermodeH | setothermodeL | setprimcolor
  | setgeometrymode | cleargeometrymode | setfillcolor | setenvcolor | setfogcolor | setblendcolor
  | settimg | setcimg | setzimg | setscissor | fillrect | texrect | texrectflip =>
    simp (disch := decide) only [decodeFor, firstHalf_field_of_agree hag, secondHalf_field_of_agree hag,
      secondHalf_of_agree hag]
  | enddl | unknown | setkeyr | setkeygb | setconvert | nop => rfl

/-- A MOVEMEM word selects one of R88's nine instructions or is taken whole with an index that selects none. -/
theorem decodeMovemem_wellFormed {op : BitVec 8} {w0 : Word} (w1 : Word) (hop : carriesOpcode op w0 = true) :
    (decodeMovemem w0 w1).wellFormed op .movemem = true := by
  simp only [decodeMovemem]
  split_ifs
  iterate 9 · rfl
  · simp [Instr.wellFormed, Instr.handler, Instr.fitsSlot, movememIndices, *]

/-- A MOVEWORD word sets a segment or is taken whole with an index other than 6 (R88). -/
theorem decodeMoveword_wellFormed {op : BitVec 8} {w0 : Word} (w1 : Word) (hop : carriesOpcode op w0 = true) :
    (decodeMoveword w0 w1).wellFormed op .moveword = true := by
  unfold decodeMoveword
  split_ifs with hidx
  · rfl
  · simp [Instr.wellFormed, Instr.handler, Instr.fitsSlot, hop, hidx]

/-- What a handler reads from a word of its slot is well-formed there. An opaque handler is left out: one bound to
MOVEWORD_X or MOVEMEM_X takes words of every index, those of R88 among them. -/
theorem decodeFor_wellFormed {h : Handler} {op : BitVec 8} {w0 : Word} (w1 : Word) (hop : carriesOpcode op w0 = true)
    (hextern : ∀ name, h ≠ .extern name) : (decodeFor h op w0 w1).wellFormed op h = true := by
  cases h with
  | movemem => exact decodeMovemem_wellFormed w1 hop
  | moveword => exact decodeMoveword_wellFormed w1 hop
  | extern name => exact absurd rfl (hextern name)
  | settile | settilesize | loadtile | loadblock | loadtlut =>
    simpa [Instr.wellFormed, decodeFor, Instr.handler, Instr.fitsSlot] using hop
  | nop name => cases name <;> simp [Instr.wellFormed, decodeFor, decodeNop, Instr.handler, Instr.fitsSlot]
  | unknown => simp [Instr.wellFormed, decodeFor, Instr.handler, Instr.fitsSlot]
  | dl | enddl | dlcnt | settimg | setcimg | setzimg | setscissor | setfillcolor
  | setothermodeH | setothermodeL | rdpsetothermode | setgeometrymode | cleargeometrymode | setcombine
  | setprimcolor | setenvcolor | setfogcolor | setblendcolor | setkeyr | setkeygb | setconvert
  | texrect | texrectflip | fillrect | mtx => rfl

/-- An opaque instruction's word is the word it was read from (47_passthrough.md R290). -/
theorem encodeAt_decodeExtern (op : BitVec 8) (w0 w1 : Word) (name : ExternName) :
    encodeAt op (decodeExtern w0 w1 name) = joinHalves w0 w1 := by
  cases name <;> rfl

theorem carriesOpcode_firstHalf (w : DWord) : carriesOpcode (opcodeOf w) (firstHalf w) = true := by
  simp [carriesOpcode, opcodeOf_eq]

/-- Decoding a word, encoding the instruction in the same slot and decoding again changes nothing: an opaque
instruction keeps the word, every other one is well-formed in its slot. -/
theorem decodeDWord_encodeAt_decodeDWord (t : Table) (w : DWord) :
    decodeDWord t (encodeAt (opcodeOf w) (decodeDWord t w)) = decodeDWord t w := by
  by_cases hextern : ∃ name, lookupHandler t (opcodeOf w) = .extern name
  · obtain ⟨name, hname⟩ := hextern
    have hword : encodeAt (opcodeOf w) (decodeDWord t w) = w := by
      rw [decodeDWord, hname, decodeFor, encodeAt_decodeExtern, joinHalves_halves]
    rw [hword]
  · exact decodeDWord_encodeAt (decodeFor_wellFormed _ (carriesOpcode_firstHalf w) (not_exists.mp hextern))

/-- Settles O3: a handler's fields are slices of the named bits, and what it reads round-trips by O1. -/
theorem ignoredBitsHaveNoInfluence : Obligations.IgnoredBitsHaveNoInfluence := by
  unfold Obligations.IgnoredBitsHaveNoInfluence
  refine fun t w => ⟨fun v hop hag => ?_, decodeDWord_encodeAt_decodeDWord t w⟩
  rw [decodeDWord, decodeDWord, ← hop, decodeFor_congr _ hag]

/-! ### The spec's example words (30_encoding.md R91) -/

/-- Settles O4: the decoder run on ten closed words. -/
theorem exampleWordsDecodeAsTheSpecReadsThem : Obligations.ExampleWordsDecodeAsTheSpecReadsThem := by
  unfold Obligations.ExampleWordsDecodeAsTheSpecReadsThem
  decide

/-! ### The unbound slots (30_encoding.md R86) -/

/-- In a table with no entry UNKNOWN, the slots that hold UNKNOWN are those no entry binds (10_state.md R32). -/
theorem lookupHandler_eq_unknown_iff {t : Table} (ht : ∀ e ∈ t, e.2 ≠ .unknown) (op : BitVec 8) :
    lookupHandler t op = .unknown ↔ op ∉ t.map Prod.fst := by
  induction t with
  | nil => simp [lookupHandler]
  | cons e rest ih =>
    obtain ⟨slot, h⟩ := e
    obtain ⟨hh, hrest⟩ := List.forall_mem_cons.mp ht
    rw [lookupHandler, List.map_cons, List.mem_cons, not_or, ← ih hrest]
    split_ifs with hslot
    · simp [hh, hslot]
    · simp [Ne.symm hslot]

/-- REF binds every opcode but those of R86's list. -/
theorem not_mem_refTable_opcodes_iff : ∀ op : BitVec 8, op ∉ refTable.map Prod.fst ↔
    op = 0x02 ∨ op = 0x05 ∨ op = 0x07 ∨ (0x08 ≤ op ∧ op ≤ 0xB2) ∨ (0xC1 ≤ op ∧ op ≤ 0xC7) ∨
      (0xD0 ≤ op ∧ op ≤ 0xE3) ∨ op = 0xF1 := by
  decide

/-- Settles O5: REF's entries decide its unbound slots, and REF+CNT is one patch before REF's table. -/
theorem unboundSlotsOfTheReferenceProfiles : Obligations.UnboundSlotsOfTheReferenceProfiles := by
  unfold Obligations.UnboundSlotsOfTheReferenceProfiles
  refine ⟨fun op => ?_, rfl, fun op hop => ?_⟩
  · exact (lookupHandler_eq_unknown_iff (t := refTable) (by decide) op).trans (not_mem_refTable_opcodes_iff op)
  · exact if_neg hop.symm

end Sys2Proof
end

section
/-! The statements of 40_dispatch_loop.md settled, and the lemmas they rest on: lookup in a patched table (R113), the
dispatch step that fetches (R120 to R124) and the one that finishes (R128), a branch to itself (R126), the start of a
Process (R112, R115 to R117), the host's write (R130), and what a handler does to ICOUNT and RUN (R125). -/

namespace Sys2Proof

/-! ### Custom profiles (40_dispatch_loop.md R113) -/

/-- In a table that binds each opcode at most once, a binding decides its slot. -/
theorem lookupHandler_of_mem {t : Table} {op : BitVec 8} {h : Handler} (hnodup : (t.map Prod.fst).Nodup)
    (hmem : (op, h) ∈ t) : lookupHandler t op = h := by
  induction t with
  | nil => cases hmem
  | cons e rest ih =>
    obtain ⟨slot, bound⟩ := e
    obtain ⟨hslot, hrest⟩ := List.nodup_cons.mp hnodup
    rw [lookupHandler]
    rcases List.mem_cons.mp hmem with heq | hmem
    · cases heq
      exact if_pos rfl
    · have hne : slot ≠ op := fun heq => hslot (heq ▸ List.mem_map.mpr ⟨_, hmem, rfl⟩)
      rw [if_neg hne, ih hrest hmem]

/-- Settles O6: the patches stand before the base's table, where the first binding of an opcode counts. -/
theorem customProfileIsItsBaseOutsideThePatches : Obligations.CustomProfileIsItsBaseOutsideThePatches := by
  unfold Obligations.CustomProfileIsItsBaseOutsideThePatches
  intro c op
  rw [patchedTable, lookupHandler_append]
  refine ⟨fun hfree => if_neg ?_, fun h hnodup hmem => ?_⟩
  · simpa only [List.any_eq_true, beq_iff_eq, not_exists, not_and] using hfree
  · rw [if_pos (List.any_eq_true.mpr ⟨_, hmem, beq_self_eq_true op⟩), lookupHandler_of_mem hnodup hmem]

end Sys2Proof

namespace Sys2Proof.Machine

/-! ### The dispatch step that fetches (40_dispatch_loop.md R120 to R124) -/

/-- The state a handler sees, in the statements' terms, is the one the fetch leaves. -/
theorem State.seenByHandler_eq_afterFetch (s : State) (top : Frame) (below : List Frame) :
    s.seenByHandler top below = s.afterFetch top below := rfl

theorem State.Fetches.fetch_eq {s : State} {top : Frame} {below : List Frame} (hf : s.Fetches top below) :
    s.fetch = .instruction (wordAt s.mem top.addr) (s.seenByHandler top below) := by
  obtain ⟨-, hs, hc, ha, hr⟩ := hf
  simp [State.fetch, hs, hc, State.fetchWord_ok ha hr, State.seenByHandler_eq_afterFetch]

/-- A step that fetches runs the instruction at pc on the state after the fetch, and settles. -/
theorem step_of_fetches {s : State} {top : Frame} {below : List Frame} {i : Instr}
    (hf : s.Fetches top below) (hi : s.instrAt top.addr = some i) :
    step s = settle (exec i (s.seenByHandler top below)) := by
  have hdecode : decodeDWord s.pcache.table (wordAt s.mem top.addr) = i := by
    simpa [State.instrAt_eq_decodeDWord] using hi
  simp [step_of_running hf.1, stepRunning, hf.fetch_eq, hdecode]

/-- After a handler that goes on, the exhausted frames are popped. -/
theorem settle_of_running {u : State} (h : u.run = .running) :
    settle (.next u) = .next { u with stack := dropExhausted u.stack } :=
  congrArg Host.Outcome.next (if_pos h)

/-- After a handler that faulted, nothing is popped. -/
theorem settle_of_not_running {u : State} (h : u.run ≠ .running) : settle (.next u) = .next u :=
  congrArg Host.Outcome.next (if_neg h)

/-- Settles O12: the fetch hands the decoded instruction to its handler, and only a Running outcome is popped. -/
theorem stepRunsTheDecodedInstruction : Obligations.StepRunsTheDecodedInstruction := by
  unfold Obligations.StepRunsTheDecodedInstruction
  intro s top below i hf hi
  have hstep := step_of_fetches hf hi
  refine ⟨hstep, fun u hu => ?_⟩
  rw [hstep, hu]
  exact ⟨settle_of_running, settle_of_not_running⟩

/-- Settles O15: the pop keeps what `dropExhausted` keeps. -/
theorem exhaustedFramesArePopped : Obligations.ExhaustedFramesArePopped := by
  unfold Obligations.ExhaustedFramesArePopped
  intro u hrun
  obtain ⟨popped, hsplit, hpopped, hkept⟩ := dropExhausted_split u.stack
  exact ⟨popped, dropExhausted u.stack, hsplit, hpopped, hkept, settle_of_running hrun⟩

theorem dropExhausted_of_exhausted {f : Frame} (below : List Frame) (h : f.cnt = some 0) :
    dropExhausted (f :: below) = dropExhausted below := if_pos h

theorem dropExhausted_of_budget {f : Frame} (below : List Frame) (h : f.cnt ≠ some 0) :
    dropExhausted (f :: below) = f :: below := if_neg h

/-- Settles O16: the fetch leaves budget `c` in the frame, and the pop drops it exactly if `c` is 0. -/
theorem countedFrameLosesOnePerDispatch : Obligations.CountedFrameLosesOnePerDispatch := by
  unfold Obligations.CountedFrameLosesOnePerDispatch
  intro s u top below i c hf hi hcnt hexec hrun hstack
  have hleft : u.stack = { addr := top.addr + 8, cnt := some c } :: below := by
    rw [hstack, State.seenByHandler, hcnt]; rfl
  refine ⟨_, by rw [step_of_fetches hf hi, hexec, settle_of_running hrun], fun hpos => ?_, fun hzero => ?_⟩
  · rw [hleft]
    exact dropExhausted_of_budget below (by simpa using hpos.ne')
  · rw [hleft, dropExhausted_of_exhausted below (congrArg some hzero)]
    exact dropExhausted_split below

/-! ### The dispatch step that finishes (40_dispatch_loop.md R121, R126, R128) -/

theorem State.ceilingReached_iff (s : State) :
    s.ceilingReached = true ↔ ∃ m, s.input.maxDispatch = some m ∧ m ≤ s.icount := by
  unfold State.ceilingReached
  cases s.input.maxDispatch <;> simp

theorem stepRunning_finishes {s : State} (h : s.stack = [] ∨ s.ceilingReached = true) :
    stepRunning s = .next s.finish := by
  unfold stepRunning
  rcases s.fetch_cases with ⟨-, e⟩ | ⟨top, below, hs, hc, -⟩
  · rw [e]
  · simp [hs, hc] at h

theorem State.finish_eq (s : State) : s.finish = { s with
    run := .done
    trace := s.trace ++ [{ event := .sceneEnd, snap := s.regs }, { event := .irqDone, snap := s.regs }] } := by
  simp [State.finish, State.emit]

/-- Settles O14: the step finishes before it fetches, whichever of the two holds. -/
theorem drainedOrCutOffProcessFinishes : Obligations.DrainedOrCutOffProcessFinishes := by
  unfold Obligations.DrainedOrCutOffProcessFinishes
  intro s hrun h
  rw [← s.ceilingReached_iff] at h
  rw [step_of_running hrun, stepRunning_finishes h, s.finish_eq]

/-! ### A branch to itself (40_dispatch_loop.md R126, 41_control.md R150) -/

/-- The top frame has no budget and its instruction is a branch to its own address. -/
structure State.BranchesToItself (s : State) (top : Frame) (below : List Frame) : Prop where
  run : s.run = .running
  stack : s.stack = top :: below
  aligned : top.addr % 8 = 0
  inRange : top.addr + 8 ≤ s.cfg.memSize
  unbounded : top.cnt = none
  instr : ∃ p len sa, s.instrAt top.addr = some (.dl p len sa) ∧ p ≠ 0 ∧ s.resolve sa = top.addr

/-- The state with another dispatch count. -/
def State.withIcount (s : State) (n : Nat) : State := { s with icount := n }

/-- Nothing a branch to itself depends on is the dispatch count. -/
theorem State.BranchesToItself.withIcount {s : State} {top : Frame} {below : List Frame}
    (h : s.BranchesToItself top below) (n : Nat) : (s.withIcount n).BranchesToItself top below :=
  ⟨h.run, h.stack, h.aligned, h.inRange, h.unbounded, h.instr⟩

theorem exec_dl_branch {p : BitVec 8} (len : BitVec 16) (sa : Word) (s : State) (hp : p ≠ 0) :
    exec (.dl p len sa) s = s.branch (s.resolve sa) := if_neg hp

/-- Below the ceiling a branch to itself counts one dispatch and changes nothing else. -/
theorem State.BranchesToItself.step_eq {s : State} {top : Frame} {below : List Frame}
    (h : s.BranchesToItself top below) (hc : s.ceilingReached = false) :
    step s = .next (s.withIcount (s.icount + 1)) := by
  obtain ⟨hrun, hs, ha, hr, hcnt, p, len, sa, hi, hp, htarget⟩ := h
  have hseen : (s.seenByHandler top below).stack = { addr := top.addr + 8, cnt := none } :: below := by
    rw [State.seenByHandler, hcnt]; rfl
  have hresolve : (s.seenByHandler top below).resolve sa = top.addr := htarget
  have hback : (s.seenByHandler top below).setStack ({ addr := top.addr, cnt := none } :: below) =
      s.withIcount (s.icount + 1) := by
    rw [← hcnt, State.withIcount, hs]; rfl
  have hkept : dropExhausted s.stack = s.stack := by
    rw [hs]; exact dropExhausted_of_budget below (by simp [hcnt])
  rw [step_of_fetches ⟨hrun, hs, hc, ha, hr⟩ hi, exec_dl_branch _ _ _ hp, hresolve, State.branch_cons _ hseen, hback,
    settle_of_running (u := s.withIcount (s.icount + 1)) hrun]
  exact congrArg (fun fs => Host.Outcome.next ((s.withIcount (s.icount + 1)).setStack fs)) hkept

theorem run_succ_of_step {s t : State} (h : step s = .next t) (n : Nat) : core.run (n + 1) s = core.run n t := by
  have hcore : core.step s = .next t := h
  simp [Host.Core.run, hcore]

/-- With `n` dispatches left to the ceiling, `n` branches to itself and the finishing step. -/
theorem State.BranchesToItself.run_to_ceiling {top : Frame} {below : List Frame} (n : Nat) :
    ∀ {s : State}, s.BranchesToItself top below → s.input.maxDispatch = some (s.icount + n) →
      core.run (n + 1) s = .next (s.withIcount (s.icount + n)).finish := by
  induction n with
  | zero =>
    intro s h hmax
    have hc : s.ceilingReached = true := s.ceilingReached_iff.mpr ⟨_, hmax, le_rfl⟩
    exact run_succ_of_step ((step_of_running h.run).trans (stepRunning_finishes (.inr hc))) 0
  | succ n ih =>
    intro s h hmax
    have hc : s.ceilingReached = false := by
      rw [Bool.eq_false_iff, Ne, s.ceilingReached_iff, hmax]
      simp
    have hcount : s.icount + (n + 1) = s.icount + 1 + n := by omega
    rw [hcount] at hmax ⊢
    rw [run_succ_of_step (h.step_eq hc)]
    exact ih (h.withIcount (s.icount + 1)) hmax

/-- Settles O19: by induction on the dispatches left, since each branch only counts one. -/
theorem ceilingCutsOffASelfBranch : Obligations.CeilingCutsOffASelfBranch := by
  unfold Obligations.CeilingCutsOffASelfBranch
  intro s top below p len sa n hrun hs ha hr hmax hcnt hi hp htarget
  have h : s.BranchesToItself top below := ⟨hrun, hs, ha, hr, hcnt, p, len, sa, hi, hp, htarget⟩
  rw [h.run_to_ceiling n hmax, State.finish_eq]
  rfl

/-! ### The host's moves between Processes (40_dispatch_loop.md R115, R130) -/

/-- A step between Processes takes the host's next move. -/
theorem step_takes_move {s : State} {move : HostMove} {later : List HostMove} (hrun : s.run = .idle ∨ s.run = .done)
    (hhost : s.host = move :: later) : step s = { s with host := later }.takeMove move := by
  have hstep : step s = s.betweenProcesses := by rcases hrun with h | h <;> simp [step, h]
  simp [hstep, State.betweenProcesses, hhost]

/-- Settles O11: the step writes the host's bytes, and a read after the write sees them and nothing else of it. -/
theorem hostWriteBetweenProcessesIsReadBack : Obligations.HostWriteBetweenProcessesIsReadBack := by
  unfold Obligations.HostWriteBetweenProcessesIsReadBack
  intro s a bytes later hrun hhost hle hwf
  refine ⟨Memory.writeBytes s.mem a bytes, ?_, fun k hk => ?_, fun b hb => ?_⟩
  · rw [step_takes_move hrun hhost]
    exact if_pos hle
  · rw [Memory.read_writeBytes bytes s.mem a hwf, if_pos (by omega), Nat.add_sub_cancel_left]
  · rw [Memory.read_writeBytes bytes s.mem a hwf, if_neg (by omega)]

/-! ### The start of a Process (40_dispatch_loop.md R112, R115 to R117) -/

theorem Task.entry_eq (task : Task) : task.entry = task.dlStart.toNat % 2 ^ 24 := toNat_and_mask24 task.dlStart

/-- The cache DETECT, BUILD and VSTRIDE give a task (40_dispatch_loop.md R112). -/
def State.builtCache (s : State) (task : Task) : ProfileCache where
  valid := true
  codeBase := task.codeBase
  pid := s.detect task
  table := buildTable (s.detect task)
  vstride := vertexStride (s.detect task)

/-- The cache a Process of the task runs with (40_dispatch_loop.md R112). -/
def State.resolvedCache (s : State) (task : Task) : ProfileCache :=
  if s.pcache.valid && s.pcache.codeBase == task.codeBase then s.pcache else s.builtCache task

/-- Resolving the profile writes PCACHE alone. -/
theorem State.resolveProfile_eq (s : State) (task : Task) :
    s.resolveProfile task = { s with pcache := s.resolvedCache task } := by
  unfold State.resolveProfile State.resolvedCache
  split <;> rfl

theorem State.resolvedCache_kept {s : State} {task : Task} (hvalid : s.pcache.valid = true)
    (hbase : s.pcache.codeBase = task.codeBase) : s.resolvedCache task = s.pcache :=
  if_pos (by simp [hvalid, hbase])

theorem State.resolvedCache_rebuilt {s : State} {task : Task}
    (h : s.pcache.valid = false ∨ s.pcache.codeBase ≠ task.codeBase) : s.resolvedCache task = s.builtCache task :=
  if_neg (by rcases h with h | h <;> simp [h])

theorem State.startProcess_available {s : State} {input : FrameInput} (h : input.rendererAvailable = true) :
    s.startProcess input = { s with
      input := input
      pcache := s.resolvedCache input.task
      stack := [{ addr := input.task.entry, cnt := none }]
      run := .running
      icount := 0
      regs := clearedRegs s.cfg.scissorReset
      trace := [{ event := .mtxReset input.task.stackHint, snap := clearedRegs s.cfg.scissorReset },
        { event := .sceneBegin, snap := clearedRegs s.cfg.scissorReset }] } := by
  simp only [State.startProcess, h, if_true, State.resolveProfile_eq]
  rfl

theorem State.startProcess_unavailable {s : State} {input : FrameInput} (h : input.rendererAvailable = false) :
    s.startProcess input = { s with
      input := input
      stack := []
      run := .done
      icount := 0
      regs := clearedRegs s.cfg.scissorReset
      trace := [{ event := .irqDone, snap := clearedRegs s.cfg.scissorReset }] } := by
  simp only [State.startProcess, h, Bool.false_eq_true, if_false]
  rfl

/-- Settles O21: the step takes the start, whose cache is the one `resolve_profile` leaves. -/
theorem processStart : Obligations.ProcessStart := by
  unfold Obligations.ProcessStart
  intro s input later hrun hhost regs
  have hstep : step s = .next ({ s with host := later }.startProcess input) := step_takes_move hrun hhost
  refine ⟨fun havail => ⟨s.resolvedCache input.task, State.resolvedCache_kept, fun hstale => ?_, ?_⟩,
    fun hunavail => ?_⟩
  · rw [State.resolvedCache_rebuilt hstale]
    exact ⟨rfl, rfl, rfl, rfl, rfl⟩
  · rw [hstep, State.startProcess_available havail, Task.entry_eq]
    rfl
  · rw [hstep, State.startProcess_unavailable hunavail]

/-! ### What a handler does to ICOUNT and RUN (40_dispatch_loop.md R125) -/

/-- No handler counts a dispatch, and only one whose memory read can fault writes RUN. -/
theorem exec_icount_run {i : Instr} {s t : State} (h : exec i s = .next t) :
    t.icount = s.icount ∧ (i.readsMemory = false → t.run = s.run) := by
  cases i with
  | spnoop | noop | rdphalf1 | rdphalf2 | loadsync | pipesync | tilesync | fullsync | triRdp
  | setkeyr | setkeygb | setconvert
  | settimg | setcimg | setzimg | movewordSegment
  | setfillcolor | setothermodeH | setothermodeL | rdpsetothermode | setgeometrymode | cleargeometrymode
  | setcombine | setprimcolor | setenvcolor | setfogcolor | setblendcolor
  | settile | settilesize | loadtile | loadblock | loadtlut
  | vtx | line3d | texture | popmtx | culldl | tri1 | movewordX | movememX | setprimdepth | externCustom =>
    cases h
    exact ⟨rfl, fun _ => rfl⟩
  | setscissor | fillrect =>
    cases h
    exact ⟨by simp, fun _ => by simp⟩
  | mtx | movememViewport =>
    refine ⟨?_, nofun⟩
    rcases State.withRecord_next h with ⟨trap, -, rfl⟩ | rfl <;> rfl
  | movememLight0 | movememLight1 | movememLight2 | movememLight3
  | movememLight4 | movememLight5 | movememLight6 | movememLight7 =>
    refine ⟨?_, nofun⟩
    rcases State.withRecord_next h with ⟨trap, -, rfl⟩ | rfl
    · rfl
    · exact s.emitLight_icount _ _
  | texrect | texrectflip =>
    refine ⟨?_, nofun⟩
    obtain ⟨top, below, -, ⟨trap, -, rfl⟩ | ⟨trap, -, rfl⟩ | hdrawn⟩ := State.withExtras_next h
    · rfl
    · rfl
    · cases hdrawn
      exact State.drawTextured_icount _ _ _
  | dl p len sa =>
    simp only [exec, execDl] at h
    split at h
    · cases h
      exact ⟨s.push_icount _ _, fun _ => s.push_run _ _⟩
    · obtain ⟨top, below, -, rfl⟩ := State.branch_next h
      exact ⟨rfl, fun _ => rfl⟩
  | dlcnt =>
    cases h
    exact ⟨s.push_icount _ _, fun _ => s.push_run _ _⟩
  | enddl | unknown =>
    obtain ⟨top, below, -, rfl⟩ := State.pop_next h
    exact ⟨rfl, fun _ => rfl⟩

/-- Settles O30: no handler writes ICOUNT, the parameters, PCACHE, memory or what the host gave. -/
theorem handlerFrame : Obligations.HandlerFrame := by
  unfold Obligations.HandlerFrame
  intro i s t h
  obtain ⟨hicount, hrun⟩ := exec_icount_run h
  obtain ⟨hinput, hpcache, hmem, hhost⟩ := exec_keepsInputs h
  exact ⟨hicount, hpcache, hinput, exec_cfg h, hhost, fun a => by rw [hmem], hrun⟩

end Sys2Proof.Machine
end

section
/-! The statements of 41_control.md settled, and the lemmas they rest on: what a table's slot makes of a word
(30_encoding.md R80), what a push does with room and without (10_state.md R34), and the run of a bounded body (R152). -/

namespace Sys2Proof.Machine

/-! ### What a bound slot makes of a word (30_encoding.md R80, R82, R86) -/

/-- A slot of REF+CNT reads every word of its opcode by the format of the handler it holds. -/
theorem readsAs_of_lookupHandler {op : BitVec 8} {h : Handler} (hslot : lookupHandler (buildTable .refCnt) op = h) :
    ReadsAs op (decodeFor h op) := by
  rintro w0 w1 rfl
  rw [decodeDWord, opcodeOf_joinHalves, hslot, firstHalf_joinHalves, secondHalf_joinHalves]

/-! ### Calls, branches and pops (41_control.md R150 to R153) -/

theorem State.push_of_room {s : State} (a : Nat) (c : Option Nat) (h : s.depth ≠ stackMax) :
    s.push a c = s.setStack ({ addr := a, cnt := c } :: s.stack) := if_neg h

theorem State.push_of_full {s : State} (a : Nat) (c : Option Nat) (h : s.depth = stackMax) :
    s.push a c = { s with errOvf := true } := if_pos h

theorem exec_dl_call {p : BitVec 8} (len : BitVec 16) (sa : Word) (s : State) (hp : p = 0) :
    exec (.dl p len sa) s = .next (s.push (s.resolve sa) none) := if_pos hp

theorem exec_dlcnt (p : BitVec 8) (len : BitVec 16) (sa : Word) (s : State) :
    exec (.dlcnt p len sa) s = .next (s.push (s.resolve sa) (some p.toNat)) := rfl

/-- Settles O36: a call is a push without a counter, a branch rewrites the top frame's address alone. -/
theorem dlCallsOrBranches : Obligations.DlCallsOrBranches := by
  unfold Obligations.DlCallsOrBranches
  refine ⟨readsAs_of_lookupHandler (h := .dl) (by decide), fun p len sa s => ⟨fun hp hroom => ?_, fun hp hfull => ?_,
    fun hp top below hs => ?_⟩⟩
  · rw [exec_dl_call len sa s hp, State.push_of_room _ _ hroom, State.resolve_eq_resolved]
    rfl
  · rw [exec_dl_call len sa s hp, State.push_of_full _ _ hfull]
  · rw [exec_dl_branch len sa s hp, State.branch_cons _ hs, State.resolve_eq_resolved]
    rfl

/-- Settles O37: the call is a push whose counter is the count field. -/
theorem dlcntCallsWithABudget : Obligations.DlcntCallsWithABudget := by
  unfold Obligations.DlcntCallsWithABudget
  refine ⟨readsAs_of_lookupHandler (h := .dlcnt) (by decide), fun p len sa s => ⟨fun hroom => ?_, fun hfull => ?_⟩⟩
  · rw [exec_dlcnt, State.push_of_room _ _ hroom, State.resolve_eq_resolved]
    rfl
  · rw [exec_dlcnt, State.push_of_full _ _ hfull]

/-- Settles O38: both handlers are the pop, and an unbound slot holds UNKNOWN. -/
theorem enddlAndUnknownPop : Obligations.EnddlAndUnknownPop := by
  unfold Obligations.EnddlAndUnknownPop
  refine ⟨readsAs_of_lookupHandler (h := .enddl) (by decide), fun t w hslot => ?_, fun s top below op hs => ?_⟩
  · rw [decodeDWord, hslot]
    rfl
  · exact ⟨State.pop_cons hs, State.pop_cons hs⟩

/-! ### Straight-line instructions (40_dispatch_loop.md R125) -/

/-- A handler that neither steers the stack nor reads guest memory goes on with the stack as it was. -/
theorem exec_of_isStraightLine {i : Instr} (s : State) (hi : i.isStraightLine = true) :
    ∃ t, exec i s = .next t ∧ t.stack = s.stack := by
  cases i with
  | dl | dlcnt | enddl | unknown | mtx | movememViewport
  | movememLight0 | movememLight1 | movememLight2 | movememLight3
  | movememLight4 | movememLight5 | movememLight6 | movememLight7 | texrect | texrectflip => cases hi
  | setscissor | fillrect => exact ⟨_, rfl, by simp⟩
  | spnoop | noop | rdphalf1 | rdphalf2 | loadsync | pipesync | tilesync | fullsync | triRdp
  | setkeyr | setkeygb | setconvert
  | settimg | setcimg | setzimg | movewordSegment
  | setfillcolor | setothermodeH | setothermodeL | rdpsetothermode | setgeometrymode | cleargeometrymode
  | setcombine | setprimcolor | setenvcolor | setfogcolor | setblendcolor
  | settile | settilesize | loadtile | loadblock | loadtlut
  | vtx | line3d | texture | popmtx | culldl | tri1 | movewordX | movememX | setprimdepth | externCustom =>
    exact ⟨_, rfl, rfl⟩

/-- A straight-line handler never faults. -/
theorem readsMemory_of_isStraightLine {i : Instr} (hi : i.isStraightLine = true) : i.readsMemory = false := by
  simp only [Instr.isStraightLine, Bool.and_eq_true, Bool.not_eq_true'] at hi
  exact hi.2

/-- An accepted no-op's handler changes nothing (47_passthrough.md R280 to R288). -/
theorem exec_of_isNoOp {i : Instr} (s : State) (hi : i.isNoOp = true) : exec i s = .next s := by
  cases i with
  | spnoop | noop | rdphalf1 | rdphalf2 | loadsync | pipesync | tilesync | fullsync | triRdp
  | setkeyr | setkeygb | setconvert => rfl
  | _ => cases hi

theorem isStraightLine_of_isNoOp {i : Instr} (hi : i.isNoOp = true) : i.isStraightLine = true := by
  cases i with
  | spnoop | noop | rdphalf1 | rdphalf2 | loadsync | pipesync | tilesync | fullsync | triRdp
  | setkeyr | setkeygb | setconvert => rfl
  | _ => cases hi

/-! ### The run of a bounded body (41_control.md R152, 40_dispatch_loop.md R122, R124) -/

theorem State.ceilingReached_of_unlimited {s : State} (h : s.input.maxDispatch = none) : s.ceilingReached = false := by
  simp [State.ceilingReached, h]

/-- The machine stands at `a`, before the last `c` instructions of a bounded body whose instructions are all of the
class `P`, over the frames of the caller. With no instruction left the body's frame is already popped. -/
structure State.InBody (P : Instr → Bool) (caller : List Frame) (s : State) (a c : Nat) : Prop where
  run : s.run = .running
  unlimited : s.input.maxDispatch = none
  stack : s.stack = dropExhausted ({ addr := a, cnt := some c } :: caller)
  aligned : a % 8 = 0
  inRange : a + 8 * c ≤ s.cfg.memSize
  words : ∀ k < c, ∃ i, s.instrAt (a + 8 * k) = some i ∧ P i = true

/-- With an instruction left, the body's frame is on top and the next step runs an instruction of the class. -/
theorem State.InBody.step_eq {P : Instr → Bool} {caller : List Frame} {s : State} {a c : Nat}
    (h : s.InBody P caller a (c + 1)) :
    ∃ i, P i = true ∧ step s = settle (exec i (s.seenByHandler { addr := a, cnt := some (c + 1) } caller)) := by
  obtain ⟨hrun, hmax, hs, ha, hr, hwords⟩ := h
  obtain ⟨i, hi, hP⟩ := hwords 0 c.succ_pos
  have hs : s.stack = { addr := a, cnt := some (c + 1) } :: caller :=
    hs.trans (dropExhausted_of_budget caller (by simp))
  exact ⟨i, hP, step_of_fetches ⟨hrun, hs, State.ceilingReached_of_unlimited hmax, ha, by dsimp only; omega⟩ hi⟩

/-- A step of a straight-line body is its instruction's handler and the pop after it, and leaves one instruction less
of the body. -/
theorem State.InBody.step_next {P : Instr → Bool} (hP : ∀ i, P i = true → i.isStraightLine = true)
    {caller : List Frame} {s : State} {a c : Nat} (h : s.InBody P caller a (c + 1)) :
    ∃ i u, P i = true ∧ exec i (s.seenByHandler { addr := a, cnt := some (c + 1) } caller) = .next u ∧
      step s = .next u.afterHandler ∧ u.afterHandler.InBody P caller (a + 8) c := by
  obtain ⟨i, hi, hstep⟩ := h.step_eq
  obtain ⟨hrun, hmax, -, ha, hr, hwords⟩ := h
  obtain ⟨u, hexec, hstack⟩ :=
    exec_of_isStraightLine (s.seenByHandler { addr := a, cnt := some (c + 1) } caller) (hP i hi)
  have hurun : u.run = .running :=
    ((exec_icount_run hexec).2 (readsMemory_of_isStraightLine (hP i hi))).trans hrun
  obtain ⟨hinput, hpcache, hmem, -⟩ := exec_keepsInputs hexec
  have hcfg : u.cfg = s.cfg := exec_cfg (s := s.seenByHandler _ _) hexec
  refine ⟨i, u, hi, hexec, by rw [hstep, hexec]; rfl, ?_⟩
  constructor
  case run => rw [State.afterHandler_run, hurun]
  case unlimited => rw [State.afterHandler_input, hinput]; exact hmax
  case stack => rw [State.afterHandler_stack, if_pos hurun, hstack]; rfl
  case aligned => omega
  case inRange => rw [State.afterHandler_cfg, hcfg]; omega
  case words =>
    intro k hk
    obtain ⟨j, hj, hPj⟩ := hwords (k + 1) (by omega)
    refine ⟨j, ?_, hPj⟩
    rw [← hj, State.instrAt_eq_decodeDWord, State.instrAt_eq_decodeDWord, State.afterHandler_pcache,
      State.afterHandler_mem, hpcache, hmem, show a + 8 + 8 * k = a + 8 * (k + 1) by ring]
    rfl

/-- With no instruction left the frames are the caller's. -/
theorem State.InBody.returned {P : Instr → Bool} {caller : List Frame} {s : State} {a : Nat}
    (h : s.InBody P caller a 0) : s.stack = dropExhausted caller :=
  h.stack.trans (dropExhausted_of_exhausted caller rfl)

/-- A straight-line body of `c` instructions is back at its caller after `c` steps, each a dispatch. -/
theorem State.InBody.run_straightLine {caller : List Frame} (c : Nat) :
    ∀ {s : State} {a : Nat}, s.InBody Instr.isStraightLine caller a c →
      ∃ t, core.run c s = .next t ∧ t.run = .running ∧ t.stack = dropExhausted caller ∧ t.icount = s.icount + c := by
  induction c with
  | zero => exact fun {s _} h => ⟨s, rfl, h.run, h.returned, rfl⟩
  | succ c ih =>
    intro s a h
    obtain ⟨i, u, -, hexec, hstep, hrest⟩ := h.step_next fun _ => id
    have hcount : u.icount = s.icount + 1 := (exec_icount_run hexec).1
    obtain ⟨t, hrun, htrun, htstack, htcount⟩ := ih hrest
    refine ⟨t, (run_succ_of_step hstep c).trans hrun, htrun, htstack, ?_⟩
    rw [htcount, State.afterHandler_icount, hcount]
    omega

/-- A body of `c` accepted no-ops changes nothing but the stack and the count of dispatches. -/
theorem State.InBody.run_noOps {caller : List Frame} (c : Nat) :
    ∀ {s : State} {a : Nat}, s.InBody Instr.isNoOp caller a c →
      core.run c s = .next ((s.withIcount (s.icount + c)).setStack (dropExhausted caller)) := by
  induction c with
  | zero =>
    intro s a h
    rw [← h.returned]
    rfl
  | succ c ih =>
    intro s a h
    obtain ⟨i, u, hi, hexec, hstep, hrest⟩ := h.step_next fun _ => isStraightLine_of_isNoOp
    have hseen : s.seenByHandler { addr := a, cnt := some (c + 1) } caller = u := by
      simpa [exec_of_isNoOp _ hi] using hexec
    have hafter : u.afterHandler = (s.withIcount (s.icount + 1)).setStack (dropExhausted u.stack) := by
      rw [← hseen]
      exact if_pos h.run
    have hcount : s.icount + (c + 1) = s.icount + 1 + c := by omega
    rw [run_succ_of_step hstep, ih hrest, hafter, hcount]
    rfl

/-- The state after a bounded call of the `n` instructions at `a`: the call counted, and the body's frame over the
caller's, or popped at once if `n` is 0. -/
def State.enterBody (s : State) (caller : List Frame) (a n : Nat) : State :=
  (s.withIcount (s.icount + 1)).setStack (dropExhausted ({ addr := a, cnt := some n } :: caller))

theorem State.enterBody_inBody {P : Instr → Bool} {s : State} (caller : List Frame) {a n : Nat}
    (hrun : s.run = .running) (hmax : s.input.maxDispatch = none)
    (ha : a % 8 = 0) (hr : a + 8 * n ≤ s.cfg.memSize)
    (hwords : ∀ k < n, ∃ i, s.instrAt (a + 8 * k) = some i ∧ P i = true) :
    (s.enterBody caller a n).InBody P caller a n := ⟨hrun, hmax, rfl, ha, hr, hwords⟩

/-- A DLCNT with room for its frame enters the body at its target; its caller is the frame it was fetched from. -/
theorem step_dlcnt {s : State} {top : Frame} {below : List Frame} {n : BitVec 8} {len : BitVec 16} {sa : Word}
    (hf : s.Fetches top below) (hi : s.instrAt top.addr = some (.dlcnt n len sa)) (hroom : s.depth < stackMax) :
    step s = .next (s.enterBody (s.seenByHandler top below).stack (s.resolve sa) n.toNat) := by
  have ⟨hrun, hs, _⟩ := hf
  have hdepth : (s.seenByHandler top below).depth = s.depth := by simp [State.depth, State.seenByHandler, hs]
  rw [step_of_fetches hf hi, exec_dlcnt, State.push_of_room _ _ (hdepth.trans_ne hroom.ne)]
  exact settle_of_running hrun

/-- Settles O17: the call enters the body, and the body's run ends at the caller, whose frame has no budget. -/
theorem boundedCallRunsExactlyN : Obligations.BoundedCallRunsExactlyN := by
  unfold Obligations.BoundedCallRunsExactlyN
  intro s top below n len sa hf hmax hcnt hroom hi ha hr
  have hcaller : (s.seenByHandler top below).stack = { top with addr := top.addr + 8 } :: below := by
    rw [State.seenByHandler, hcnt]; rfl
  have hkept : dropExhausted ({ top with addr := top.addr + 8 } :: below) =
      { top with addr := top.addr + 8 } :: below := dropExhausted_of_budget below (by simp [hcnt])
  have hcall := step_dlcnt hf hi hroom
  rw [hcaller] at hcall
  rw [Nat.add_comm 1, run_succ_of_step hcall]
  refine ⟨fun hbody => ?_, fun hbody => ?_⟩
  · obtain ⟨t, hrun, htrun, htstack, htcount⟩ := (State.enterBody_inBody _ hf.1 hmax ha hr hbody).run_straightLine
    exact ⟨t, hrun, htrun, htstack.trans hkept, htcount⟩
  · rw [(State.enterBody_inBody _ hf.1 hmax ha hr hbody).run_noOps, hkept]
    rfl

end Sys2Proof.Machine
end

section
/-! The statements of 42_addressing_image.md settled, and the lemmas they rest on: what a MOVEWORD with the segment
index is read as (30_encoding.md R88), and which slot a segment write changes (R173). -/

namespace Sys2Proof.Machine

/-! ### The image sets (42_addressing_image.md R170 to R172) -/

/-- Settles O39: the three handlers store the one descriptor `imageDesc`, each in its own register. -/
theorem imageSetStoresTheDescriptor : Obligations.ImageSetStoresTheDescriptor := by
  unfold Obligations.ImageSetStoresTheDescriptor
  refine ⟨readsAs_of_lookupHandler (h := .settimg) (by decide), readsAs_of_lookupHandler (h := .setcimg) (by decide),
    readsAs_of_lookupHandler (h := .setzimg) (by decide), fun fmt siz wm1 sa s => ?_⟩
  have haddr : (s.imageDesc fmt siz wm1 sa).addr = s.resolved sa := s.resolve_eq_resolved sa
  exact ⟨s.imageDesc fmt siz wm1 sa, rfl, rfl, imageDesc_width s fmt siz wm1 sa, haddr, rfl, rfl, rfl⟩

/-! ### The segment set (42_addressing_image.md R173) -/

theorem decodeMoveword_segment {w0 : Word} (w1 : Word) (hidx : w0.extractLsb' 0 8 = 0x06) :
    decodeMoveword w0 w1 = .movewordSegment (w0.extractLsb' 8 16) w1 := if_pos hidx

theorem State.segment_setSegment (s : State) (n k : BitVec 4) (v : Word) :
    (s.setSegment n v).segment k = if k = n then v else s.segment k := by
  split
  · next h => rw [h, State.segment_setSegment_same]
  · next h => exact s.segment_setSegment_other v h

theorem eq_segmentNumber_iff (n : BitVec 4) (ofs : BitVec 16) :
    n = segmentNumber ofs ↔ n.toNat = ofs.toNat / 4 % 16 := by
  rw [← BitVec.toNat_inj, segmentNumber_toNat]

/-- Settles O40: the handler is one write to the register of `segmentNumber`. -/
theorem segmentSetStoresTheWholeWord : Obligations.SegmentSetStoresTheWholeWord := by
  unfold Obligations.SegmentSetStoresTheWholeWord
  refine ⟨fun w0 w1 hop hidx => ?_, fun ofs data s => ⟨(s.setSegment (segmentNumber ofs) data).seg, rfl, fun n => ?_⟩⟩
  · have hread : ReadsAs 0xBC decodeMoveword := readsAs_of_lookupHandler (h := .moveword) (by decide)
    rw [hread w0 w1 hop, decodeMoveword_segment w1 hidx]
  · exact (s.segment_setSegment (segmentNumber ofs) n data).trans (if_congr (eq_segmentNumber_iff n ofs) rfl rfl)

end Sys2Proof.Machine
end

section
/-! The statement of 43_tile.md settled: the handler of a tile instruction emits one event, and an emitted event is an
announced one (00_scope.md R11). -/

namespace Sys2Proof.Machine

/-- The handlers' one operation in the term of the statements (00_scope.md R11). -/
theorem State.emit_eq_announced (s : State) (e : Event) : s.emit e = s.announced e := rfl

/-- Settles O41: each of the five handlers is one `emit` of the two halves as they stand in its slot's word. -/
theorem tileInstructionsForwardTheWord : Obligations.TileInstructionsForwardTheWord := by
  unfold Obligations.TileInstructionsForwardTheWord
  refine ⟨readsAs_of_lookupHandler (h := .settile) (by decide), readsAs_of_lookupHandler (h := .settilesize) (by decide),
    readsAs_of_lookupHandler (h := .loadtile) (by decide), readsAs_of_lookupHandler (h := .loadblock) (by decide),
    readsAs_of_lookupHandler (h := .loadtlut) (by decide), fun w0 w1 s => ?_⟩
  simp only [← State.emit_eq_announced]
  exact ⟨rfl, rfl, rfl, rfl, rfl⟩

end Sys2Proof.Machine
end

section
/-! The statements of 44_raster_state.md settled, and the lemmas they rest on: the scissor test and the title's policy
as propositions (R200), and the other-mode and geometry-mode writes bit by bit (R202 to R206). -/

namespace Sys2Proof.Machine

/-! ### The other-mode registers (44_raster_state.md R202 to R204) -/

/-- The mask has exactly the bits from `sft` to `sft + len - 1`, those below 32. -/
theorem getLsbD_otherModeMask (sft len : BitVec 8) (k : Nat) :
    (otherModeMask sft len).getLsbD k = decide (k < 32 ∧ sft.toNat ≤ k ∧ k < sft.toNat + len.toNat) := by
  rw [otherModeMask, BitVec.getLsbD_ofNat, Nat.testBit_mul_two_pow, Nat.testBit_two_pow_sub_one]
  by_cases hsft : sft.toNat ≤ k
  · have hlen : k - sft.toNat < len.toNat ↔ k < sft.toNat + len.toNat := by omega
    simp [hsft, hlen]
  · simp [hsft]

/-- A masked write takes a bit from `data` under the mask and keeps it elsewhere. -/
theorem getLsbD_maskedWrite (old mask data : Word) {k : Nat} (hk : k < 32) :
    (maskedWrite old mask data).getLsbD k = if mask.getLsbD k then data.getLsbD k else old.getLsbD k := by
  rw [maskedWrite, BitVec.getLsbD_or, BitVec.getLsbD_and, BitVec.getLsbD_and, BitVec.getLsbD_not]
  cases mask.getLsbD k <;> simp [hk]

theorem getLsbD_otherModeWrite (old data : Word) (sft len : BitVec 8) {k : Nat} (hk : k < 32) :
    (maskedWrite old (otherModeMask sft len) data).getLsbD k =
      if sft.toNat ≤ k ∧ k < sft.toNat + len.toNat then data.getLsbD k else old.getLsbD k := by
  rw [getLsbD_maskedWrite _ _ _ hk, getLsbD_otherModeMask]
  simp only [hk, true_and, decide_eq_true_eq]

/-- Settles O44: both handlers are the one masked write, each of its own register. -/
theorem otherModeIsWrittenUnderItsMask : Obligations.OtherModeIsWrittenUnderItsMask := by
  unfold Obligations.OtherModeIsWrittenUnderItsMask
  refine ⟨readsAs_of_lookupHandler (h := .setothermodeH) (by decide),
    readsAs_of_lookupHandler (h := .setothermodeL) (by decide), fun sft len data s => ?_⟩
  exact ⟨_, _, fun k hk => getLsbD_otherModeWrite s.regs.omh data sft len hk,
    fun k hk => getLsbD_otherModeWrite s.regs.oml data sft len hk, rfl, rfl⟩

/-- Settles O45: the 24-bit field widened is the same number, of which CYCLE is two bits. -/
theorem rdpOtherModeReplacesBoth : Obligations.RdpOtherModeReplacesBoth := by
  unfold Obligations.RdpOtherModeReplacesBoth
  refine ⟨readsAs_of_lookupHandler (h := .rdpsetothermode) (by decide), fun omh oml s => ?_⟩
  have hwide : (omh.setWidth 32).toNat = omh.toNat := BitVec.toNat_setWidth_of_le (by decide)
  exact ⟨omh.setWidth 32, hwide, by rw [Regs.cycle, hwide], rfl⟩

/-! ### The geometry mode (44_raster_state.md R205, R206) -/

theorem getLsbD_setFlags (old data : Word) (k : Nat) :
    (setFlags old data).getLsbD k = (old.getLsbD k || data.getLsbD k) := BitVec.getLsbD_or

theorem getLsbD_clearFlags (old data : Word) {k : Nat} (hk : k < 32) :
    (clearFlags old data).getLsbD k = (old.getLsbD k && !data.getLsbD k) := by
  simp [clearFlags, hk]

/-- Settles O46: the handlers write GEOM by `setFlags` and `clearFlags`. -/
theorem geometryModeBitsAreSetAndCleared : Obligations.GeometryModeBitsAreSetAndCleared := by
  unfold Obligations.GeometryModeBitsAreSetAndCleared
  refine ⟨readsAs_of_lookupHandler (h := .setgeometrymode) (by decide),
    readsAs_of_lookupHandler (h := .cleargeometrymode) (by decide), fun data s => ?_⟩
  exact ⟨_, _, fun k _ => getLsbD_setFlags s.regs.geom data k, fun k hk => getLsbD_clearFlags s.regs.geom data hk,
    rfl, rfl⟩

/-! ### The scissor (44_raster_state.md R200) -/

theorem requestedScissor_eq (ulx uly lrx lry : BitVec 12) :
    requestedScissor ulx uly lrx lry =
      { left := ulx.toNat / 4, top := uly.toNat / 4, right := lrx.toNat / 4, bottom := lry.toNat / 4 } := by
  simp only [requestedScissor, wholePixels_eq]

theorem acceptable_iff (r : Scissor) : acceptable r = true ↔ r.left < r.right ∧ r.top < r.bottom := by
  simp [acceptable]

theorem State.offerScissor_of_accepted (s : State) {r : Scissor} (h : r.left < r.right ∧ r.top < r.bottom) :
    s.offerScissor r =
      (s.setRegs { s.regs with scissor := r }).announced (.scissor r.left r.top r.right r.bottom) :=
  if_pos ((acceptable_iff r).mpr h)

theorem State.offerScissor_of_rejected (s : State) {r : Scissor} (h : ¬ (r.left < r.right ∧ r.top < r.bottom)) :
    s.offerScissor r = s := if_neg (mt (acceptable_iff r).mp h)

theorem State.viewportPolicyApplies_of_none {s : State} (h : s.input.policy.vpHackAlign = none) :
    s.viewportPolicyApplies = false := by
  simp [State.viewportPolicyApplies, h]

/-- With a boundary other than 0 the policy tests CIMG's remainder. -/
theorem State.viewportPolicyApplies_iff {s : State} {a : Nat} (ha : 0 < a)
    (h : s.input.policy.vpHackAlign = some a) : s.viewportPolicyApplies = true ↔ s.regs.cimg.addr % a ≠ 0 := by
  simp [State.viewportPolicyApplies, h, modulo, ha.ne']

/-- The policy does not look at what the scissor test may have written. -/
theorem State.viewportPolicyApplies_offerScissor (s : State) (r : Scissor) :
    (s.offerScissor r).viewportPolicyApplies = s.viewportPolicyApplies := by
  unfold State.offerScissor
  split <;> rfl

theorem exec_setscissor (ulx uly : BitVec 12) (mode : BitVec 2) (lrx lry : BitVec 12) (s : State) :
    exec (.setscissor ulx uly mode lrx lry) s =
      .next (s.offerScissor (requestedScissor ulx uly lrx lry)).announceViewport := rfl

/-- Settles O42: the scissor test decides the state the policy's event is appended to, not whether it is appended. -/
theorem scissorSetIsCheckedAndAnnounced : Obligations.ScissorSetIsCheckedAndAnnounced := by
  unfold Obligations.ScissorSetIsCheckedAndAnnounced
  refine ⟨readsAs_of_lookupHandler (h := .setscissor) (by decide), fun ulx uly mode lrx lry s => ?_⟩
  intro r
  refine ⟨s.offerScissor r, s.viewportPolicyApplies, s.offerScissor_of_accepted,
    s.offerScissor_of_rejected, State.viewportPolicyApplies_of_none,
    fun _ => State.viewportPolicyApplies_iff, ?_⟩
  rw [exec_setscissor, requestedScissor_eq, State.announceViewport, State.viewportPolicyApplies_offerScissor]
  rfl

/-! ### The fill color, the combiner and the constant colors (44_raster_state.md R201, R207 to R211) -/

/-- Settles O43: the handler is one register write. -/
theorem fillColorIsStored : Obligations.FillColorIsStored := by
  unfold Obligations.FillColorIsStored
  exact ⟨readsAs_of_lookupHandler (h := .setfillcolor) (by decide), fun _ _ => rfl⟩

/-- Settles O47: each handler is a register write and then one `emit`. -/
theorem combineAndPrimColorAreStoredAndAnnounced : Obligations.CombineAndPrimColorAreStoredAndAnnounced := by
  unfold Obligations.CombineAndPrimColorAreStoredAndAnnounced
  refine ⟨readsAs_of_lookupHandler (h := .setcombine) (by decide),
    readsAs_of_lookupHandler (h := .setprimcolor) (by decide), fun mux0 mux1 m l color s => ?_⟩
  simp only [← State.emit_eq_announced]
  exact ⟨rfl, rfl⟩

/-- Settles O48: each handler is a register write and then one `emit`. -/
theorem constantColorsAreStoredAndAnnounced : Obligations.ConstantColorsAreStoredAndAnnounced := by
  unfold Obligations.ConstantColorsAreStoredAndAnnounced
  refine ⟨readsAs_of_lookupHandler (h := .setenvcolor) (by decide),
    readsAs_of_lookupHandler (h := .setfogcolor) (by decide),
    readsAs_of_lookupHandler (h := .setblendcolor) (by decide), fun c s => ?_⟩
  simp only [← State.emit_eq_announced]
  exact ⟨rfl, rfl, rfl⟩

end Sys2Proof.Machine
end

section
/-! The statements of 45_rectangles.md settled, and the lemmas they rest on: the cycle type as a number (10_state.md
R44), the tests of a rectangle as propositions (R232, R235), and the second half of a fetched word in memory's 16-bit
units (20_memory.md R62, R230). -/

namespace Sys2Proof.Machine

/-! ### The cycle type (10_state.md R44) -/

theorem Regs.cycle_eq_toNat_cycleField (r : Regs) : r.cycle = (cycleField r.omh).toNat := by
  rw [Regs.cycle, cycleField, BitVec.extractLsb'_toNat, Nat.shiftRight_eq_div_pow]

theorem isCopy_iff (r : Regs) : isCopy r.omh = true ↔ r.cycle = 2 := by
  rw [isCopy, beq_iff_eq, r.cycle_eq_toNat_cycleField, ← BitVec.toNat_inj]
  rfl

theorem isFill_iff (r : Regs) : isFill r.omh = true ↔ r.cycle = 3 := by
  rw [isFill, beq_iff_eq, r.cycle_eq_toNat_cycleField, ← BitVec.toNat_inj]
  rfl

/-! ### The coordinates (R233) -/

/-- A position field is in quarter pixels. -/
theorem fx_position (v : BitVec 12) : fx v.toNat 2 = (v.toNat : Rat) / 4 := by
  rw [fx_eq_div]
  norm_num

/-- Settles O49: quarters are two fraction bits, and the far edges' pixel is added in COPY and FILL alike. -/
theorem rectangleCoordinates : Obligations.RectangleCoordinates := by
  unfold Obligations.RectangleCoordinates
  intro regs xh yh xl yl r extra
  have hextra : (if isCopy regs.omh || isFill regs.omh then 1 else 0 : Rat) = extra :=
    if_congr (by rw [Bool.or_eq_true, isCopy_iff, isFill_iff]) rfl rfl
  refine ⟨fx_position xl, fx_position yl, ?_, ?_⟩
  · rw [rectOf_x1, fx_position, hextra]
  · rw [rectOf_y1, fx_position, hextra]

/-! ### The tests of a rectangle (R232, R235) -/

theorem State.imageSupported_iff (s : State) :
    s.imageSupported = true ↔ (s.regs.cimg.fmt, s.regs.cimg.siz) ∈ s.cfg.ciSupported := List.contains_iff_mem

theorem degenerate_iff (r : Rect) : degenerate r = true ↔ r.x1 ≤ r.x0 ∨ r.y1 ≤ r.y0 := by
  simp [degenerate]

theorem outside_iff (r : Rect) (c : Scissor) :
    outside r c = true ↔
      r.x1 < (c.left : Rat) ∨ r.y1 < (c.top : Rat) ∨ (c.right : Rat) < r.x0 ∨ (c.bottom : Rat) < r.y0 := by
  simp [outside, or_assoc]

theorem State.coversFramebuffer_iff (s : State) (r : Rect) :
    s.coversFramebuffer r = true ↔ r.x0 = 0 ∧ r.y0 = 0 ∧ r.x1 = (s.regs.cimg.width.toNat : Rat) ∧
      r.y1 = (s.regs.scissor.bottom : Rat) := by
  simp [State.coversFramebuffer, and_assoc]

theorem State.clearsFramebuffer_iff (s : State) (r : Rect) :
    s.clearsFramebuffer r = true ↔ s.regs.cycle = 3 ∧ s.input.policy.wholeScreenClear = true ∧
      r.x0 = 0 ∧ r.y0 = 0 ∧ r.x1 = (s.regs.cimg.width.toNat : Rat) ∧ r.y1 = (s.regs.scissor.bottom : Rat) := by
  rw [State.clearsFramebuffer, Bool.and_eq_true, Bool.and_eq_true, isFill_iff, State.coversFramebuffer_iff, and_assoc]

/-- Settles O50: neither degenerate nor outside, each test negated. -/
theorem gateOfARectangle : Obligations.GateOfARectangle := by
  unfold Obligations.GateOfARectangle
  intro s r
  simp only [State.gate, Bool.and_eq_true, Bool.not_eq_true', ← Bool.not_eq_true, State.imageSupported_iff,
    degenerate_iff, outside_iff, not_or, not_le, not_lt, and_assoc]

/-! ### Filled rectangles (R234, R235) -/

theorem exec_fillrect (xh yh xl yl : BitVec 12) (s : State) :
    exec (.fillrect xh yh xl yl) s = .next (s.fillRectangle (rectOf s.regs.omh xh yh xl yl)) := rfl

/-- Settles O53: the handler's four tests in their order, each as the proposition it decides. -/
theorem filledRectanglesAreDrawnOrClear : Obligations.FilledRectanglesAreDrawnOrClear := by
  unfold Obligations.FilledRectanglesAreDrawnOrClear
  refine ⟨readsAs_of_lookupHandler (h := .fillrect) (by decide), fun xh yh xl yl s => ?_⟩
  intro r
  have hformat : (!s.imageSupported) = true ↔ (s.regs.cimg.fmt, s.regs.cimg.siz) ∉ s.cfg.ciSupported := by
    rw [Bool.not_eq_true', ← Bool.not_eq_true, State.imageSupported_iff]
  rw [exec_fillrect, State.fillRectangle]
  exact congrArg Host.Outcome.next (if_congr hformat rfl (if_congr (s.clearsFramebuffer_iff r) rfl
    (if_congr (degenerate_iff r) rfl (if_congr (outside_iff r s.regs.scissor) rfl rfl))))

/-! ### Textured rectangles (R230, R231) -/

/-- A number read by parts: the first bytes are its high digits. -/
theorem bigEndian_append (xs ys : List Byte) :
    bigEndian (xs ++ ys) = bigEndian xs * 256 ^ ys.length + bigEndian ys := by
  induction xs with
  | nil => simp [bigEndian]
  | cons b rest ih => rw [List.cons_append, bigEndian, ih, bigEndian, List.length_append]; ring

theorem State.halfAt_eq_bigEndian (s : State) (a : Nat) : s.halfAt a = bigEndian (Memory.readBytes s.mem a 2) := by
  simp [State.halfAt, State.byteAt, Memory.readBytes, bigEndian]

theorem State.halfAt_lt (s : State) (a : Nat) : s.halfAt a < 2 ^ 16 := by
  rw [State.halfAt_eq_bigEndian]
  exact bigEndian_readBytes_lt s.mem a 2

/-- The second half of the word at `a` is the units at `a + 4` and `a + 6` (20_memory.md R62). -/
theorem State.secondHalf_wordAt_toNat (s : State) (a : Nat) :
    (secondHalf (wordAt s.mem a)).toNat = s.halfAt (a + 4) * 2 ^ 16 + s.halfAt (a + 6) := by
  have hbytes : bigEndian (Memory.readBytes s.mem a 8) =
      bigEndian (Memory.readBytes s.mem a 4) * 2 ^ 32 + (s.halfAt (a + 4) * 2 ^ 16 + s.halfAt (a + 6)) := by
    rw [show 8 = 4 + (2 + 2) from rfl, Memory.readBytes_add, Memory.readBytes_add, bigEndian_append, bigEndian_append,
      State.halfAt_eq_bigEndian, State.halfAt_eq_bigEndian]
    simp [add_assoc]
  have hhigh := s.halfAt_lt (a + 4)
  have hlow := s.halfAt_lt (a + 6)
  rw [secondHalf, wordAt, BitVec.extractLsb'_toNat, BitVec.toNat_ofNat, Nat.shiftRight_zero, hbytes,
    Nat.mod_mod_of_dvd _ (pow_dvd_pow 2 (by decide)), Nat.mul_add_mod_self_right, Nat.mod_eq_of_lt (by omega)]

theorem State.secondHalf_wordAt_high (s : State) (a : Nat) :
    (secondHalf (wordAt s.mem a)).extractLsb' 16 16 = BitVec.ofNat 16 (s.halfAt (a + 4)) := by
  have hlow := s.halfAt_lt (a + 6)
  apply BitVec.eq_of_toNat_eq
  rw [BitVec.extractLsb'_toNat, State.secondHalf_wordAt_toNat, BitVec.toNat_ofNat, Nat.shiftRight_eq_div_pow]
  omega

theorem State.secondHalf_wordAt_low (s : State) (a : Nat) :
    (secondHalf (wordAt s.mem a)).extractLsb' 0 16 = BitVec.ofNat 16 (s.halfAt (a + 6)) := by
  apply BitVec.eq_of_toNat_eq
  rw [BitVec.extractLsb'_toNat, State.secondHalf_wordAt_toNat, BitVec.toNat_ofNat, Nat.shiftRight_zero,
    Nat.mul_add_mod_self_right]

/-- The operand in the upper 16 bits of an extra word's second half, `k` of them fraction bits. -/
theorem State.fx_wordAt_high (s : State) (a k : Nat) :
    fx ((secondHalf (wordAt s.mem a)).extractLsb' 16 16).toInt k = (sext 16 (s.halfAt (a + 4)) : Rat) / 2 ^ k := by
  rw [State.secondHalf_wordAt_high, toInt_ofNat_eq_sext (s.halfAt_lt (a + 4)), fx_eq_div]

/-- The operand in the lower 16 bits of an extra word's second half, `k` of them fraction bits. -/
theorem State.fx_wordAt_low (s : State) (a k : Nat) :
    fx ((secondHalf (wordAt s.mem a)).extractLsb' 0 16).toInt k = (sext 16 (s.halfAt (a + 6)) : Rat) / 2 ^ k := by
  rw [State.secondHalf_wordAt_low, toInt_ofNat_eq_sext (s.halfAt_lt (a + 6)), fx_eq_div]

/-- Settles O51: both words are fetched, the operands are their second halves, and the gate decides on the event. -/
theorem texturedRectanglesAreDrawn : Obligations.TexturedRectanglesAreDrawn := by
  unfold Obligations.TexturedRectanglesAreDrawn
  refine ⟨readsAs_of_lookupHandler (h := .texrect) (by decide), readsAs_of_lookupHandler (h := .texrectflip) (by decide),
    fun xh yh tile xl yl s top below hs ha hr => ?_⟩
  intro r moved ds
  have hds : fx ((secondHalf (wordAt s.mem (top.addr + 8))).extractLsb' 16 16).toInt 10 = ds :=
    (s.fx_wordAt_high (top.addr + 8) 10).trans (by norm_num [ds])
  refine ⟨texCoordsOf s.regs.omh (wordAt s.mem top.addr) (wordAt s.mem (top.addr + 8)), ?_, ?_, ?_, ?_,
    (State.withExtras_ok _ hs ha hr).trans rfl, (State.withExtras_ok _ hs ha hr).trans rfl⟩
  · exact (s.fx_wordAt_high top.addr 5).trans (by norm_num)
  · exact (s.fx_wordAt_low top.addr 5).trans (by norm_num)
  · rw [texCoordsOf_dsdx, hds]
    exact if_congr (isCopy_iff s.regs) rfl rfl
  · exact (s.fx_wordAt_low (top.addr + 8) 10).trans (by norm_num)

end Sys2Proof.Machine
end

section
/-! The statements of 46_matrix_light.md settled, and the lemmas they rest on: a matrix element as a number of its four
bytes (R263), the index of a light (R261), and the sentinel direction byte by byte (R264). -/

namespace Sys2Proof.Machine

/-! ### Numbers of joined bytes -/

theorem toNat_append_eq_add {n m : Nat} (x : BitVec n) (y : BitVec m) :
    (x ++ y).toNat = x.toNat * 2 ^ m + y.toNat := by
  rw [BitVec.toNat_append, ← Nat.shiftLeft_add_eq_or_of_lt y.isLt, Nat.shiftLeft_eq]

theorem toInt_eq_sext {bits : Nat} (x : BitVec bits) : x.toInt = sext bits x.toNat := by
  simpa using toInt_ofNat_eq_sext x.isLt

/-! ### The matrix (46_matrix_light.md R263) -/

theorem matrixRow_getElem (record : List Byte) (i : Nat) {j : Nat} (hj : j < 4) :
    (matrixRow record i)[j] = matrixElement record (4 * i + j) := by
  interval_cases j <;> rfl

/-- The matrix is row-major. -/
theorem decodeMatrix_getElem (record : List Byte) {i j : Nat} (hi : i < 4) (hj : j < 4) :
    (decodeMatrix record)[i][j] = matrixElement record (4 * i + j) := by
  have hrow : (decodeMatrix record)[i] = matrixRow record i := by interval_cases i <;> rfl
  rw [hrow, matrixRow_getElem record i hj]

theorem matrixElement_eq_div (record : List Byte) (k : Nat) :
    matrixElement record k = ((matrixRaw record k).toInt : Rat) / 65536 := by
  rw [matrixElement, fx_eq_div]
  norm_num

/-- The four bytes of an element's raw value, its high half first. -/
theorem matrixRaw_toNat (record : List Byte) (k : Nat) :
    (matrixRaw record k).toNat =
      ((recordByte record (2 * k)).toNat * 256 + (recordByte record (2 * k + 1)).toNat) * 65536 +
        ((recordByte record (32 + 2 * k)).toNat * 256 + (recordByte record (32 + 2 * k + 1)).toNat) := by
  simp only [matrixRaw, toNat_append_eq_add]
  ring

/-- The two planes of a record in memory are 16-bit units of memory. -/
theorem State.matrixRaw_readBytes_toNat (s : State) (a : Nat) {k : Nat} (hk : k < 16) :
    (matrixRaw (Memory.readBytes s.mem a 64) k).toNat =
      s.halfAt (a + 2 * k) * 65536 + s.halfAt (a + 32 + 2 * k) := by
  rw [matrixRaw_toNat, recordByte_readBytes s.mem a (by omega), recordByte_readBytes s.mem a (by omega),
    recordByte_readBytes s.mem a (by omega), recordByte_readBytes s.mem a (by omega)]
  simp only [State.halfAt, State.byteAt, Nat.add_assoc]

theorem exec_mtx (p : BitVec 8) (len : BitVec 16) (sa : Word) (s : State) :
    exec (.mtx p len sa) s =
      s.withRecord (s.resolve sa) 64 fun record => s.emit (.matrix p (decodeMatrix record)) := rfl

/-- Settles O54: the record is read whole, and each element is two of its 16-bit units. -/
theorem matrixLoadDecodesTheRecord : Obligations.MatrixLoadDecodesTheRecord := by
  unfold Obligations.MatrixLoadDecodesTheRecord
  refine ⟨readsAs_of_lookupHandler (h := .mtx) (by decide), fun p len sa s => ?_⟩
  intro a ha hr
  refine ⟨decodeMatrix (Memory.readBytes s.mem a 64), fun i j hi hj => ?_, ?_⟩
  · rw [decodeMatrix_getElem _ hi hj, matrixElement_eq_div, toInt_eq_sext,
      s.matrixRaw_readBytes_toNat a (by omega)]
  · rw [exec_mtx, State.resolve_eq_resolved, State.withRecord_ok _ ha hr]
    rfl

/-- Settles O55: the four bytes of a raw value, joined again, are the value. -/
theorem matrixDecodeRoundTrip : Obligations.MatrixDecodeRoundTrip := by
  unfold Obligations.MatrixDecodeRoundTrip
  intro raw record hbytes i j hi hj
  have hraw : matrixRaw record (4 * i + j) = raw (4 * i + j) := by
    obtain ⟨h24, h16, h8, h0⟩ := hbytes (4 * i + j) (by omega)
    apply BitVec.eq_of_toNat_eq
    simp only [matrixRaw_toNat, h24, h16, h8, h0, BitVec.extractLsb'_toNat, Nat.shiftRight_eq_div_pow]
    omega
  rw [decodeMatrix_getElem record hi hj, matrixElement_eq_div, hraw]

/-! ### The lights (46_matrix_light.md R261, R264) -/

/-- A MOVEMEM word is read by its index (30_encoding.md R88). -/
theorem readsAs_decodeMovemem : ReadsAs 0x03 decodeMovemem :=
  readsAs_of_lookupHandler (h := .movemem) (by decide)

theorem decodeMovemem_light {n : Fin 8} {w0 : Word} (w1 : Word)
    (hidx : (w0.extractLsb' 16 8).toNat = 0x86 + 2 * n.val) :
    decodeMovemem w0 w1 = Instr.lightLoad n (w0.extractLsb' 0 16) w1 := by
  have hp : w0.extractLsb' 16 8 = BitVec.ofNat 8 (0x86 + 2 * n.val) := by rw [← hidx, BitVec.ofNat_toNat]; rfl
  rw [decodeMovemem, hp]
  fin_cases n <;> rfl

/-- The sentinel is three zero bytes: a signed byte is 0 only if the byte is. -/
theorem lightDirection_eq_zero_iff (record : List Byte) :
    lightDirection record = (0, 0, 0) ↔
      recordByte record 8 = 0 ∧ recordByte record 9 = 0 ∧ recordByte record 10 = 0 := by
  have hzero (x : Byte) : x.toInt = 0 ↔ x = 0 := by rw [← BitVec.toInt_inj]; rfl
  simp only [lightDirection, Prod.mk.injEq, hzero]

theorem lightDirEvent_eq_sext (n : Fin 8) (record : List Byte) :
    lightDirEvent n record = .lightDir n (sext 8 (recordByte record 8).toNat)
      (sext 8 (recordByte record 9).toNat) (sext 8 (recordByte record 10).toNat) := by
  simp only [lightDirEvent, lightDirection, toInt_eq_sext]

/-- Settles O56: every index is one light load, whose sentinel test is the three bytes' own. -/
theorem lightLoadKeepsTheSentinel : Obligations.LightLoadKeepsTheSentinel := by
  unfold Obligations.LightLoadKeepsTheSentinel
  refine ⟨fun n w0 w1 hop hidx => ?_, fun n len sa s => ?_⟩
  · rw [readsAs_decodeMovemem w0 w1 hop, decodeMovemem_light w1 hidx]
  · intro a b colored ha hr
    have hb {k : Nat} (hk : k < 16) : recordByte (Memory.readBytes s.mem a 16) k = b k :=
      recordByte_readBytes s.mem a hk
    rw [exec_lightLoad, State.loadLight, State.resolve_eq_resolved, State.withRecord_ok _ ha hr, State.emitLight,
      lightColorEvent, lightDirEvent_eq_sext]
    simp only [lightDirection_eq_zero_iff, hb, Nat.reduceLT, State.emit_eq_announced]
    rfl

/-! ### The viewport (46_matrix_light.md R262) -/

theorem decodeMovemem_viewport {w0 : Word} (w1 : Word) (hidx : w0.extractLsb' 16 8 = 0x80) :
    decodeMovemem w0 w1 = .movememViewport (w0.extractLsb' 0 16) w1 := if_pos hidx

theorem exec_movememViewport (len : BitVec 16) (sa : Word) (s : State) :
    exec (.movememViewport len sa) s =
      s.withRecord (s.resolve sa) 16 fun record => s.emit (.viewport (viewportValue record)) := rfl

/-- Sixteen bytes fit the 128 bits. -/
theorem viewportValue_readBytes_toNat (m : Memory) (a : Nat) :
    (viewportValue (Memory.readBytes m a 16)).toNat = bigEndian (Memory.readBytes m a 16) := by
  have hfits : bigEndian (Memory.readBytes m a 16) < 2 ^ 128 := bigEndian_readBytes_lt m a 16
  rw [viewportValue, BitVec.toNat_ofNat, Nat.mod_eq_of_lt hfits]

/-- Settles O57: the value is the big-endian number of the record, of which byte `k` is the byte read. -/
theorem viewportLoadForwardsTheRecord : Obligations.ViewportLoadForwardsTheRecord := by
  unfold Obligations.ViewportLoadForwardsTheRecord
  refine ⟨fun w0 w1 hop hidx => ?_, fun len sa s => ?_⟩
  · rw [readsAs_decodeMovemem w0 w1 hop, decodeMovemem_viewport w1 hidx]
  · intro a ha hr
    refine ⟨viewportValue (Memory.readBytes s.mem a 16), fun k hk => ?_, ?_⟩
    · rw [viewportValue_readBytes_toNat]
      exact bigEndian_readBytes_byte s a hk
    · rw [exec_movememViewport, State.resolve_eq_resolved, State.withRecord_ok _ ha hr]
      rfl

end Sys2Proof.Machine
end

section
/-! The statements of 47_passthrough.md settled, and the lemmas they rest on: the slot of a native triangle (R288), and
the words that are taken whole because their index selects nothing or their slot holds an override handler (R290, R297,
R298). -/

namespace Sys2Proof.Machine

/-! ### The accepted no-ops (47_passthrough.md R280 to R288) -/

/-- A native triangle's variant is the low three bits of its opcode. -/
theorem readsAs_triRdp (variant : BitVec 3) : ReadsAs (0x19#5 ++ variant) (fun _ _ => .triRdp variant) := by
  have hslot : ∀ v : BitVec 3, lookupHandler (buildTable .refCnt) (0x19#5 ++ v) = .nop .triRdp := by decide
  have hvariant : (0x19#5 ++ variant).extractLsb' 0 3 = variant :=
    (extract_low _ _ _ _ le_rfl).trans (extract_all variant)
  intro w0 w1 hop
  rw [readsAs_of_lookupHandler (hslot variant) w0 w1 hop, decodeFor, decodeNop, hvariant]

/-- Settles O59: each slot holds an accepted no-op, whose handler changes nothing. -/
theorem acceptedNoOpsChangeNothing : Obligations.AcceptedNoOpsChangeNothing := by
  unfold Obligations.AcceptedNoOpsChangeNothing
  exact ⟨readsAs_of_lookupHandler (h := .nop .spnoop) (by decide),
    readsAs_of_lookupHandler (h := .nop .noop) (by decide),
    readsAs_of_lookupHandler (h := .nop .rdphalf1) (by decide),
    readsAs_of_lookupHandler (h := .nop .rdphalf2) (by decide),
    readsAs_of_lookupHandler (h := .nop .loadsync) (by decide),
    readsAs_of_lookupHandler (h := .nop .pipesync) (by decide),
    readsAs_of_lookupHandler (h := .nop .tilesync) (by decide),
    readsAs_of_lookupHandler (h := .nop .fullsync) (by decide),
    readsAs_triRdp, readsAs_of_lookupHandler (h := .setkeyr) (by decide),
    readsAs_of_lookupHandler (h := .setkeygb) (by decide), readsAs_of_lookupHandler (h := .setconvert) (by decide),
    fun _ s hi => exec_of_isNoOp s hi⟩

/-! ### The opaque instructions (47_passthrough.md R290 to R299) -/

/-- A MOVEWORD word is read by its index (30_encoding.md R88). -/
theorem readsAs_decodeMoveword : ReadsAs 0xBC decodeMoveword :=
  readsAs_of_lookupHandler (h := .moveword) (by decide)

theorem decodeMoveword_of_not_segment {w0 : Word} (w1 : Word) (hidx : w0.extractLsb' 0 8 ≠ 0x06) :
    decodeMoveword w0 w1 = .movewordX w0 w1 := if_neg hidx

/-- In whatever table and slot, an override handler takes the word whole (R290). -/
theorem decodeDWord_override {t : Table} {mnemonic : String} {w0 : Word} (w1 : Word)
    (hslot : lookupHandler t (w0.extractLsb' 24 8) = .extern (.custom mnemonic)) :
    decodeDWord t (joinHalves w0 w1) = .externCustom mnemonic w0 w1 := by
  rw [decodeDWord, opcodeOf_joinHalves, hslot, firstHalf_joinHalves, secondHalf_joinHalves, decodeFor, decodeExtern]

/-- Settles O60: the word is taken whole, and each of the ten handlers is one `emit` of its two halves. -/
theorem opaqueInstructionsForwardTheWord : Obligations.OpaqueInstructionsForwardTheWord := by
  unfold Obligations.OpaqueInstructionsForwardTheWord
  refine ⟨readsAs_of_lookupHandler (h := .extern .vtx) (by decide),
    readsAs_of_lookupHandler (h := .extern .line3d) (by decide),
    readsAs_of_lookupHandler (h := .extern .texture) (by decide),
    readsAs_of_lookupHandler (h := .extern .popmtx) (by decide),
    readsAs_of_lookupHandler (h := .extern .culldl) (by decide),
    readsAs_of_lookupHandler (h := .extern .tri1) (by decide),
    readsAs_of_lookupHandler (h := .extern .setprimdepth) (by decide),
    fun w0 w1 hop hidx => ?_, fun w0 w1 hop hidx => ?_, fun t mnemonic w0 w1 => decodeDWord_override w1,
    fun mnemonic w0 w1 s => ?_⟩
  · rw [readsAs_decodeMoveword w0 w1 hop, decodeMoveword_of_not_segment w1 hidx]
  · rw [readsAs_decodeMovemem w0 w1 hop, decodeMovemem_of_not_index w1 hidx]
  · simp only [← State.emit_eq_announced]
    exact ⟨rfl, rfl, rfl, rfl, rfl, rfl, rfl, rfl, rfl, rfl⟩

end Sys2Proof.Machine
end

section
/-! The statements of 60_exceptions.md settled, and the lemmas they rest on: no handler announces the completion signal
or ends the Process but by a fault (R305), and what a step does in Faulted (R304) and with no move of the host pending
(R312). -/

namespace Sys2Proof.Machine

/-! ### A Process without its completion signal (60_exceptions.md R305) -/

/-- The Process has not ended but perhaps by a fault, and has announced no completion signal. -/
structure State.Unsignalled (s : State) : Prop where
  run : s.run = .running ∨ ∃ trap, s.run = .faulted trap
  trace : ∀ r ∈ s.trace, r.event ≠ .irqDone

theorem State.Unsignalled.signalInv {s : State} (h : s.Unsignalled) : s.SignalInv := by
  obtain ⟨hrun | ⟨trap, hrun⟩, htrace⟩ := h <;> simpa [State.SignalInv, hrun] using htrace

theorem State.SignalInv.unsignalled {s : State} (h : s.SignalInv) (hrun : s.run = .running) : s.Unsignalled :=
  ⟨.inl hrun, by simpa [State.SignalInv, hrun] using h⟩

/-- The property reads RUN and the trace alone. -/
theorem State.Unsignalled.congr {s t : State} (h : s.Unsignalled) (hrun : t.run = s.run) (htrace : t.trace = s.trace) :
    t.Unsignalled :=
  ⟨by rw [hrun]; exact h.run, by rw [htrace]; exact h.trace⟩

theorem State.Unsignalled.raise {s : State} (h : s.Unsignalled) (trap : Trap) : (s.raise trap).Unsignalled :=
  ⟨.inr ⟨trap, rfl⟩, h.trace⟩

theorem State.Unsignalled.setRegs {s : State} (h : s.Unsignalled) (r : Regs) : (s.setRegs r).Unsignalled :=
  h.congr rfl rfl

theorem State.Unsignalled.setStack {s : State} (h : s.Unsignalled) (fs : List Frame) : (s.setStack fs).Unsignalled :=
  h.congr rfl rfl

theorem State.Unsignalled.push {s : State} (h : s.Unsignalled) (a : Nat) (c : Option Nat) :
    (s.push a c).Unsignalled :=
  h.congr (s.push_run a c) (s.push_trace a c)

theorem State.Unsignalled.afterHandler {s : State} (h : s.Unsignalled) : s.afterHandler.Unsignalled :=
  h.congr s.afterHandler_run s.afterHandler_trace

/-- An event other than the completion signal is not the completion signal's record. -/
theorem State.Unsignalled.emit {s : State} (h : s.Unsignalled) {e : Event} (he : e ≠ .irqDone) :
    (s.emit e).Unsignalled := by
  refine ⟨h.run, fun r hr => ?_⟩
  rcases List.mem_append.mp hr with hr | hr
  · exact h.trace r hr
  · rw [List.mem_singleton.mp hr]
    exact he

/-! ### No handler announces the completion signal -/

theorem State.Unsignalled.offerScissor {s : State} (h : s.Unsignalled) (r : Scissor) :
    (s.offerScissor r).Unsignalled := by
  unfold State.offerScissor
  split
  · exact (h.setRegs _).emit nofun
  · exact h

theorem State.Unsignalled.announceViewport {s : State} (h : s.Unsignalled) : s.announceViewport.Unsignalled := by
  unfold State.announceViewport
  split
  · exact h.emit nofun
  · exact h

theorem State.Unsignalled.drawTextured {s : State} (h : s.Unsignalled) (r : Rect) {e : Event} (he : e ≠ .irqDone) :
    (s.drawTextured r e).Unsignalled := by
  unfold State.drawTextured
  split
  · exact h.emit he
  · exact h

theorem State.clearEvent_ne_irqDone (s : State) : s.clearEvent ≠ .irqDone := by
  unfold State.clearEvent
  split <;> nofun

theorem State.Unsignalled.fillRectangle {s : State} (h : s.Unsignalled) (r : Rect) :
    (s.fillRectangle r).Unsignalled := by
  unfold State.fillRectangle
  split_ifs
  · exact h
  · exact h.emit s.clearEvent_ne_irqDone
  · exact h
  · exact h
  · exact h.emit nofun

theorem State.Unsignalled.emitLight {s : State} (h : s.Unsignalled) (n : Fin 8) (record : List Byte) :
    (s.emitLight n record).Unsignalled := by
  have hcolor : (s.emit (lightColorEvent n record)).Unsignalled := h.emit nofun
  unfold State.emitLight
  dsimp only
  split
  · exact hcolor
  · exact hcolor.emit nofun

theorem State.Unsignalled.of_withRecord {s t : State} {a n : Nat} {body : List Byte → State} (h : s.Unsignalled)
    (hbody : ∀ record, (body record).Unsignalled) (hnext : s.withRecord a n body = .next t) : t.Unsignalled := by
  rcases State.withRecord_next hnext with ⟨trap, -, rfl⟩ | rfl
  · exact h.raise trap
  · exact hbody _

theorem State.Unsignalled.of_withExtras {s t : State} {body : DWord → DWord → State → Result} (h : s.Unsignalled)
    (hbody : ∀ e1 e2 u, u.Unsignalled → body e1 e2 u = .next t → t.Unsignalled)
    (hnext : s.withExtras body = .next t) : t.Unsignalled := by
  obtain ⟨top, below, -, ⟨trap, -, rfl⟩ | ⟨trap, -, rfl⟩ | hb⟩ := State.withExtras_next hnext
  · exact h.raise trap
  · exact (h.setStack _).raise trap
  · exact hbody _ _ _ ((h.setStack _).setStack _) hb

/-- Every handler leaves RUN as it is or raises a fault, and what it announces is not the completion signal. -/
theorem exec_unsignalled {i : Instr} {s t : State} (hs : s.Unsignalled) (h : exec i s = .next t) : t.Unsignalled := by
  cases i with
  | spnoop | noop | rdphalf1 | rdphalf2 | loadsync | pipesync | tilesync | fullsync | triRdp
  | setkeyr | setkeygb | setconvert
  | settimg | setcimg | setzimg | movewordSegment
  | setfillcolor | setothermodeH | setothermodeL | rdpsetothermode | setgeometrymode | cleargeometrymode =>
    cases h
    exact hs.congr rfl rfl
  | setcombine | setprimcolor | setenvcolor | setfogcolor | setblendcolor =>
    cases h
    exact (hs.setRegs _).emit nofun
  | settile | settilesize | loadtile | loadblock | loadtlut
  | vtx | line3d | texture | popmtx | culldl | tri1 | movewordX | movememX | setprimdepth | externCustom =>
    cases h
    exact hs.emit nofun
  | setscissor =>
    cases h
    exact (hs.offerScissor _).announceViewport
  | fillrect =>
    cases h
    exact hs.fillRectangle _
  | mtx | movememViewport =>
    refine hs.of_withRecord (fun _ => ?_) h
    exact hs.emit nofun
  | movememLight0 | movememLight1 | movememLight2 | movememLight3
  | movememLight4 | movememLight5 | movememLight6 | movememLight7 => exact hs.of_withRecord (hs.emitLight _) h
  | texrect | texrectflip =>
    refine hs.of_withExtras (fun e1 e2 u hu hnext => ?_) h
    cases hnext
    exact hu.drawTextured _ nofun
  | dl p len sa =>
    simp only [exec, execDl] at h
    split at h
    · cases h
      exact hs.push _ _
    · obtain ⟨top, below, -, rfl⟩ := State.branch_next h
      exact hs.setStack _
  | dlcnt =>
    cases h
    exact hs.push _ _
  | enddl | unknown =>
    obtain ⟨top, below, -, rfl⟩ := State.pop_next h
    exact hs.setStack _

/-! ### The completion signal over a step (60_exceptions.md R305) -/

/-- The finish of a Process announces its one completion signal, last (40_dispatch_loop.md R128). -/
theorem State.Unsignalled.finish_signalInv {s : State} (h : s.Unsignalled) : s.finish.SignalInv :=
  ⟨(s.emit .sceneEnd).trace, s.regs, s.finish_trace, (h.emit (e := .sceneEnd) nofun).trace⟩

/-- A dispatch step finishes with the signal, faults in its fetch, or is a fetch, a handler and a pop. -/
theorem stepRunning_signalInv {s t : State} (hs : s.Unsignalled) (h : stepRunning s = .next t) : t.SignalInv := by
  rcases stepRunning_next h with ⟨-, rfl⟩ | ⟨top, below, -, -, ⟨trap, -, rfl⟩ | ⟨u, -, hexec, rfl⟩⟩
  · exact hs.finish_signalInv
  · exact (hs.raise trap).signalInv
  · have hfetched : (s.afterFetch top below).Unsignalled := hs.congr rfl rfl
    exact (exec_unsignalled hfetched hexec).afterHandler.signalInv

/-- A Process starts with its two frame-start events, or ends at once with its signal (40_dispatch_loop.md R115,
R117). -/
theorem State.startProcess_signalInv (s : State) (input : FrameInput) : (s.startProcess input).SignalInv := by
  cases havail : input.rendererAvailable with
  | false =>
    rw [State.startProcess_unavailable havail]
    exact ⟨[], _, rfl, by simp⟩
  | true =>
    rw [State.startProcess_available havail]
    exact State.Unsignalled.signalInv ⟨.inl rfl, by simp⟩

theorem State.powerOn_signalInv (s : State) : s.powerOn.SignalInv := rfl

/-- Settles O27: a Running step keeps the signal out of the trace or finishes with it; a power-on empties the trace and
a start begins it anew. -/
theorem stepKeepsTheCompletionSignalRule : Obligations.StepKeepsTheCompletionSignalRule := by
  unfold Obligations.StepKeepsTheCompletionSignalRule
  intro s t hinv h
  rcases step_next h with ⟨hrun, h⟩ | ⟨-, h⟩ | ⟨trap, -, h⟩
  · exact stepRunning_signalInv (hinv.unsignalled hrun) h
  · rcases State.betweenProcesses_next h with ⟨-, rfl⟩ | ⟨later, -, rfl⟩ | ⟨a, bytes, later, -, -, rfl⟩ |
      ⟨input, later, -, rfl⟩
    · exact hinv
    · exact State.powerOn_signalInv _
    · exact hinv
    · exact State.startProcess_signalInv _ input
  · obtain ⟨later, -, rfl⟩ := State.whileFaulted_next h
    exact State.powerOn_signalInv _

/-! ### Faulted, and between Processes with nothing to do (60_exceptions.md R304, R312) -/

theorem step_of_faulted {s : State} {trap : Trap} (h : s.run = .faulted trap) : step s = s.whileFaulted trap := by
  simp [step, h]

theorem State.whileFaulted_powerOn {s : State} {later : List HostMove} (trap : Trap)
    (h : s.host = .powerOn :: later) : s.whileFaulted trap = .next { s with host := later }.powerOn := by
  simp [State.whileFaulted, h]

/-- With another move than a power-on pending, or none, a faulted machine halts. -/
theorem State.whileFaulted_halts {s : State} (trap : Trap) (h : ∀ move ∈ s.host.head?, move ≠ .powerOn) :
    s.whileFaulted trap = .fault (.halted trap) := by
  unfold State.whileFaulted
  split
  · next later hhost => exact absurd rfl (h .powerOn (by simp [hhost]))
  · rfl

/-- Settles O23: in Faulted a step takes a power-on or halts. -/
theorem faultedIsTerminal : Obligations.FaultedIsTerminal := by
  unfold Obligations.FaultedIsTerminal
  intro s trap hrun hhost
  rw [step_of_faulted hrun, State.whileFaulted_halts trap hhost]

theorem State.betweenProcesses_idle {s : State} (h : s.host = []) : s.betweenProcesses = .next s := by
  simp [State.betweenProcesses, h]

/-- Settles O24: between Processes a step does nothing but take the host's next move. -/
theorem nothingHappensUntilTheHostMoves : Obligations.NothingHappensUntilTheHostMoves := by
  unfold Obligations.NothingHappensUntilTheHostMoves
  rintro s (hrun | hrun) hhost <;> simp only [step, hrun, State.betweenProcesses_idle hhost]

end Sys2Proof.Machine
end

section
/-! The statements of 70_reset_and_hazards.md settled, and the lemmas they rest on: the run of a branch to itself with
no ceiling (R347), and the step that takes a power-on (R330). -/

namespace Sys2Proof.Machine

/-! ### A branch to itself with no ceiling (70_reset_and_hazards.md R347) -/

/-- Without a ceiling, each step of a branch to itself counts one dispatch and changes nothing else. -/
theorem State.BranchesToItself.run_unlimited {top : Frame} {below : List Frame} (n : Nat) :
    ∀ {s : State}, s.BranchesToItself top below → s.input.maxDispatch = none →
      core.run n s = .next (s.withIcount (s.icount + n)) := by
  induction n with
  | zero => exact fun _ _ => rfl
  | succ n ih =>
    intro s h hmax
    have hcount : s.icount + (n + 1) = s.icount + 1 + n := by omega
    rw [run_succ_of_step (h.step_eq (State.ceilingReached_of_unlimited hmax)), hcount]
    exact ih (h.withIcount (s.icount + 1)) hmax

/-- Settles O18: by induction on the steps, each of which branches back to where it was. -/
theorem selfBranchRunsForEver : Obligations.SelfBranchRunsForEver := by
  unfold Obligations.SelfBranchRunsForEver
  intro s top below p len sa hf hmax hcnt hi hp htarget n
  obtain ⟨hrun, hs, -, ha, hr⟩ := hf
  have h : s.BranchesToItself top below := ⟨hrun, hs, ha, hr, hcnt, p, len, sa, hi, hp, htarget⟩
  exact h.run_unlimited n hmax

/-! ### Power-on (70_reset_and_hazards.md R330, 10_state.md R52) -/

/-- Outside a Process a pending power-on is taken. -/
theorem step_powerOn {s : State} {later : List HostMove} (hrun : s.run ≠ .running)
    (hhost : s.host = .powerOn :: later) : step s = .next { s with host := later }.powerOn := by
  cases h : s.run with
  | running => exact absurd h hrun
  | idle => exact step_takes_move (.inl h) hhost
  | done => exact step_takes_move (.inr h) hhost
  | faulted trap => exact (step_of_faulted h).trans (State.whileFaulted_powerOn trap hhost)

/-- Settles O22: the step takes the power-on, which keeps the parameters, guest memory and the later moves. -/
theorem powerOnIsTheWayOutOfAFault : Obligations.PowerOnIsTheWayOutOfAFault := by
  unfold Obligations.PowerOnIsTheWayOutOfAFault
  exact fun _ _ hrun hhost => step_powerOn hrun hhost

theorem reset_segment (n : BitVec 4) : State.reset.segment n = 0 := by
  simp [State.segment, State.reset, Vector.get_eq_getElem]

/-- A state that steps to itself is where any number of steps leaves the machine. -/
theorem run_of_step_self {s : State} (h : step s = .next s) (n : Nat) : core.run n s = .next s := by
  induction n with
  | zero => rfl
  | succ n ih => rw [run_succ_of_step h, ih]

/-- Settles O20: every register is cleared, and a step from Idle with no move of the host pending stays there. -/
theorem powerOnValues : Obligations.PowerOnValues := by
  unfold Obligations.PowerOnValues
  have hidle : step State.reset = .next State.reset := nothingHappensUntilTheHostMoves State.reset (.inl rfl) rfl
  have himages : ∀ d ∈ [State.reset.regs.timg, State.reset.regs.cimg, State.reset.regs.zimg],
      d = { fmt := 0, siz := 0, width := 0, addr := 0 } := by decide
  exact ⟨rfl, rfl, reset_segment, rfl, rfl, rfl, rfl, rfl, himages, rfl, rfl, rfl, rfl, rfl, rfl, rfl, rfl, rfl,
    run_of_step_self hidle⟩

end Sys2Proof.Machine
end
